-- ==== Sys2Proof/Word.lean ====
section
/-! DEFINITION. The word types of RIMG-INFLATE: a byte, and the 32-bit host register (R6, R9, R23). -/

namespace Sys2Proof

/-- A byte of the stream, of the window or of a FIFO (R9). -/
abbrev Byte := BitVec 8

/-- A host register: one 32-bit value, bit 0 least significant (R6 REG_W, R65). -/
abbrev Word := BitVec 32

end Sys2Proof
end

