-- ==== Sys2Proof/Config.lean ====
section
/-! DEFINITION. The fixed parameters of R6 and the open parameters of R7. The open ones are data that State carries
and no step writes, so a statement over all states is one over every value of them (log 3, log 4). N_INSTANCES is the
length of the list of states in Machine/System.lean. -/

namespace Sys2Proof

/-- The open parameters of R7 that one block sees. -/
structure Config where
  /-- IN_FIFO_DEPTH, 1..65535 (R7, R34). -/
  inDepth : Nat
  /-- OUT_FIFO_DEPTH, 1..65535 (R7, R34). -/
  outDepth : Nat
  /-- BLOCK_BASE: where the 128-byte register space lies (R69). -/
  blockBase : Nat
  /-- IRQ_ROUTE: the host interrupt input the IRQ line drives (R219). -/
  irqInput : Nat
  /-- IRQ_ROUTE: the priority at that input (R219). -/
  irqPriority : Nat
  deriving DecidableEq, Repr

namespace Config

/-- Both depths are in the range R7 and R34 give them. -/
def wf (c : Config) : Bool :=
  decide (1 ≤ c.inDepth) && decide (c.inDepth ≤ 65535) && decide (1 ≤ c.outDepth) && decide (c.outDepth ≤ 65535)

/-- DESIGN CHOICE (log 3, log 4): the parameters State.reset carries. The spec fixes none of them. -/
def standard : Config :=
  { inDepth := 65535, outDepth := 65535, blockBase := 0, irqInput := 0, irqPriority := 0 }

/-- WSIZE: the window's size in bytes (R6). -/
def wsize : Nat := 32768

/-- MAXBITS: the longest Huffman code (R6). -/
def maxBits : Nat := 15

/-- LL_SYMS: the literal/length symbols (R6). -/
def llSyms : Nat := 288

/-- D_SYMS: the distance symbols (R6). -/
def dSyms : Nat := 32

/-- CL_SYMS: the code-length symbols (R6). -/
def clSyms : Nat := 19

/-- The modulus of both Adler-32 sums (R114). -/
def adlerMod : Nat := 65521

/-- The size in bytes of the register space (R69). -/
def regSpace : Nat := 128

end Config

end Sys2Proof
end

