-- ==== Sys2Proof/Syntax.lean ====
section
/-! DEFINITION. The syntax: one constructor of `Instr` for each row of spec/opcode_table.json. A row that INF performs
in several steps (R13) has an argument that says which of its steps, with the field that step reads (log 9); the other
arguments are the row's operands (R94). Also the host's accesses (R74) and the turns of the agenda (R17, R75, log 1). -/

namespace Sys2Proof

/-- One step of a length or distance symbol (R140, R142): the last bit of its code, then its k extra bits. -/
inductive SymStep (k : Nat) where
  | code
  | extra (e : BitVec k)
  deriving DecidableEq, Repr

/-- One step of a literal (R137, R138): the last bit of its code, then the emit of LIT_BYTE. -/
inductive LitStep where
  | code (b : Byte)
  | emit
  deriving DecidableEq, Repr

/-- One step of STORED_HDR (R119): LEN, then NLEN. -/
inductive StoredField where
  | len (v : BitVec 16)
  | nlen (v : BitVec 16)
  deriving DecidableEq, Repr

/-- One step of DYN_HDR (R128): HLIT, HDIST, HCLEN. -/
inductive DynField where
  | hlit (v : BitVec 5)
  | hdist (v : BitVec 5)
  | hclen (v : BitVec 4)
  deriving DecidableEq, Repr

/-- One step of DYN_CL (R129): a 3-bit code length, or the build of CL_T after the last one. -/
inductive ClenStep where
  | field (v : BitVec 3)
  | build
  deriving DecidableEq, Repr

/-- The instructions: one constructor a row of the opcode table, in the table's order. -/
inductive Instr where
  /-- The first zlib header byte (R111). -/
  | zhdrCmf (cmf : Byte)
  /-- The second zlib header byte, with the header checks (R111, R112). -/
  | zhdrFlg (flg : Byte)
  /-- A block header with BTYPE = 0 (R117). -/
  | blockStored (bfinal : Bool)
  /-- A block header with BTYPE = 1 (R117). -/
  | blockFixed (bfinal : Bool)
  /-- A block header with BTYPE = 2 (R117). -/
  | blockDynamic (bfinal : Bool)
  /-- A block header with the reserved BTYPE = 3 (R117). -/
  | blockReserved (bfinal : Bool)
  /-- LEN and NLEN of a stored block (R119). -/
  | storedHdr (f : StoredField)
  /-- One data byte of a stored block (R120). -/
  | storedByte (b : Byte)
  /-- HLIT, HDIST and HCLEN (R128). -/
  | dynHdr (f : DynField)
  /-- A code-length code length, or the build of CL_T (R129). -/
  | dynClen (f : ClenStep)
  /-- A code length 0..15 (R131). -/
  | clLen (s : BitVec 4)
  /-- Repeat the previous length (R132). -/
  | clRep16 (f : SymStep 2)
  /-- Repeat length 0, 3 to 10 times (R133). -/
  | clZero17 (f : SymStep 3)
  /-- Repeat length 0, 11 to 138 times (R134). -/
  | clZero18 (f : SymStep 7)
  /-- Check and build LL_T and D_T (R135). -/
  | dynBuild
  /-- A literal (R137, R138). -/
  | lit (f : LitStep)
  /-- The end of a block (R139). -/
  | eob
  /-- Length symbol 257: lengths 3..3 (R147). -/
  | len257 (f : SymStep 0)
  /-- Length symbol 258: lengths 4..4 (R148). -/
  | len258 (f : SymStep 0)
  /-- Length symbol 259: lengths 5..5 (R149). -/
  | len259 (f : SymStep 0)
  /-- Length symbol 260: lengths 6..6 (R150). -/
  | len260 (f : SymStep 0)
  /-- Length symbol 261: lengths 7..7 (R151). -/
  | len261 (f : SymStep 0)
  /-- Length symbol 262: lengths 8..8 (R152). -/
  | len262 (f : SymStep 0)
  /-- Length symbol 263: lengths 9..9 (R153). -/
  | len263 (f : SymStep 0)
  /-- Length symbol 264: lengths 10..10 (R154). -/
  | len264 (f : SymStep 0)
  /-- Length symbol 265: lengths 11..12 (R155). -/
  | len265 (f : SymStep 1)
  /-- Length symbol 266: lengths 13..14 (R156). -/
  | len266 (f : SymStep 1)
  /-- Length symbol 267: lengths 15..16 (R157). -/
  | len267 (f : SymStep 1)
  /-- Length symbol 268: lengths 17..18 (R158). -/
  | len268 (f : SymStep 1)
  /-- Length symbol 269: lengths 19..22 (R159). -/
  | len269 (f : SymStep 2)
  /-- Length symbol 270: lengths 23..26 (R160). -/
  | len270 (f : SymStep 2)
  /-- Length symbol 271: lengths 27..30 (R161). -/
  | len271 (f : SymStep 2)
  /-- Length symbol 272: lengths 31..34 (R162). -/
  | len272 (f : SymStep 2)
  /-- Length symbol 273: lengths 35..42 (R163). -/
  | len273 (f : SymStep 3)
  /-- Length symbol 274: lengths 43..50 (R164). -/
  | len274 (f : SymStep 3)
  /-- Length symbol 275: lengths 51..58 (R165). -/
  | len275 (f : SymStep 3)
  /-- Length symbol 276: lengths 59..66 (R166). -/
  | len276 (f : SymStep 3)
  /-- Length symbol 277: lengths 67..82 (R167). -/
  | len277 (f : SymStep 4)
  /-- Length symbol 278: lengths 83..98 (R168). -/
  | len278 (f : SymStep 4)
  /-- Length symbol 279: lengths 99..114 (R169). -/
  | len279 (f : SymStep 4)
  /-- Length symbol 280: lengths 115..130 (R170). -/
  | len280 (f : SymStep 4)
  /-- Length symbol 281: lengths 131..162 (R171). -/
  | len281 (f : SymStep 5)
  /-- Length symbol 282: lengths 163..194 (R172). -/
  | len282 (f : SymStep 5)
  /-- Length symbol 283: lengths 195..226 (R173). -/
  | len283 (f : SymStep 5)
  /-- Length symbol 284: lengths 227..258 (R174). -/
  | len284 (f : SymStep 5)
  /-- Length symbol 285: lengths 258..258 (R175). -/
  | len285 (f : SymStep 0)
  /-- Length symbols 286 (x = 0) and 287 (x = 1), reserved (R206). -/
  | llReserved (x : BitVec 1)
  /-- Distance symbol 0: distances 1..1 (R176). -/
  | dist0 (f : SymStep 0)
  /-- Distance symbol 1: distances 2..2 (R177). -/
  | dist1 (f : SymStep 0)
  /-- Distance symbol 2: distances 3..3 (R178). -/
  | dist2 (f : SymStep 0)
  /-- Distance symbol 3: distances 4..4 (R179). -/
  | dist3 (f : SymStep 0)
  /-- Distance symbol 4: distances 5..6 (R180). -/
  | dist4 (f : SymStep 1)
  /-- Distance symbol 5: distances 7..8 (R181). -/
  | dist5 (f : SymStep 1)
  /-- Distance symbol 6: distances 9..12 (R182). -/
  | dist6 (f : SymStep 2)
  /-- Distance symbol 7: distances 13..16 (R183). -/
  | dist7 (f : SymStep 2)
  /-- Distance symbol 8: distances 17..24 (R184). -/
  | dist8 (f : SymStep 3)
  /-- Distance symbol 9: distances 25..32 (R185). -/
  | dist9 (f : SymStep 3)
  /-- Distance symbol 10: distances 33..48 (R186). -/
  | dist10 (f : SymStep 4)
  /-- Distance symbol 11: distances 49..64 (R187). -/
  | dist11 (f : SymStep 4)
  /-- Distance symbol 12: distances 65..96 (R188). -/
  | dist12 (f : SymStep 5)
  /-- Distance symbol 13: distances 97..128 (R189). -/
  | dist13 (f : SymStep 5)
  /-- Distance symbol 14: distances 129..192 (R190). -/
  | dist14 (f : SymStep 6)
  /-- Distance symbol 15: distances 193..256 (R191). -/
  | dist15 (f : SymStep 6)
  /-- Distance symbol 16: distances 257..384 (R192). -/
  | dist16 (f : SymStep 7)
  /-- Distance symbol 17: distances 385..512 (R193). -/
  | dist17 (f : SymStep 7)
  /-- Distance symbol 18: distances 513..768 (R194). -/
  | dist18 (f : SymStep 8)
  /-- Distance symbol 19: distances 769..1024 (R195). -/
  | dist19 (f : SymStep 8)
  /-- Distance symbol 20: distances 1025..1536 (R196). -/
  | dist20 (f : SymStep 9)
  /-- Distance symbol 21: distances 1537..2048 (R197). -/
  | dist21 (f : SymStep 9)
  /-- Distance symbol 22: distances 2049..3072 (R198). -/
  | dist22 (f : SymStep 10)
  /-- Distance symbol 23: distances 3073..4096 (R199). -/
  | dist23 (f : SymStep 10)
  /-- Distance symbol 24: distances 4097..6144 (R200). -/
  | dist24 (f : SymStep 11)
  /-- Distance symbol 25: distances 6145..8192 (R201). -/
  | dist25 (f : SymStep 11)
  /-- Distance symbol 26: distances 8193..12288 (R202). -/
  | dist26 (f : SymStep 12)
  /-- Distance symbol 27: distances 12289..16384 (R203). -/
  | dist27 (f : SymStep 12)
  /-- Distance symbol 28: distances 16385..24576 (R204). -/
  | dist28 (f : SymStep 13)
  /-- Distance symbol 29: distances 24577..32768 (R205). -/
  | dist29 (f : SymStep 13)
  /-- Distance symbols 30 (x = 0) and 31 (x = 1), reserved (R207). -/
  | dReserved (x : BitVec 1)
  /-- Copy one byte of a length/distance pair, `len` of whose bytes are still to come (R143, R100). -/
  | matchCopy (len : BitVec 9) (dist : BitVec 16)
  /-- One of the four trailer bytes (R116). -/
  | trailer (b : Byte)
  /-- CTRL.START (R102). -/
  | start
  /-- CTRL.EOI (R103). -/
  | eoi
  /-- CTRL.ABORT (R104). -/
  | abort
  /-- Push one input byte (R105). -/
  | push (b : Byte)
  /-- Pop one output byte (R106). -/
  | pop
  /-- Write CONFIG (R107). -/
  | wrConfig (v : Word)
  /-- Write OUT_LIMIT (R107). -/
  | wrOutLimit (v : Word)
  /-- Write CRC_EXPECT (R107). -/
  | wrCrcExpect (v : Word)
  /-- Read the register of word number `k`, at offset 4k (R108). -/
  | rdReg (k : BitVec 5)
  /-- CRC_CTRL.INIT (R208). -/
  | crcInit
  /-- Feed one byte to the CRC (R209). -/
  | crcByte (b : Byte)
  /-- Read CRC_VALUE (R210). -/
  | rdCrcValue
  /-- Read CRC_STATUS (R211). -/
  | rdCrcStatus
  deriving DecidableEq, Repr

/-- A host access to a platform address, `width` bytes wide (R69, R74). -/
inductive Access where
  | read (addr width : Nat)
  | write (addr width : Nat) (v : Word)
  deriving DecidableEq, Repr

/-- One turn of the total order of R75: a host access, a step of INF, or the platform's reset input (R227). -/
inductive Turn where
  | host (a : Access)
  | inf
  | reset
  deriving DecidableEq, Repr

end Sys2Proof
end

