-- ==== Sys2Proof/WellFormed.lean ====
section
/-! DEFINITION. Which instruction terms are instructions of the block: the operand ranges the field types do not
already enforce. An out-of-range field value that the STREAM can hold (a bad header byte, BTYPE = 3, HLIT = 30) is
well formed: the block reads it and raises the error the spec names (R96). -/

namespace Sys2Proof

/-- The length of a copy still to do: 1..258 (R52, R100). -/
def wfCopyLen (len : BitVec 9) : Bool := decide (1 ≤ len.toNat) && decide (len.toNat ≤ 258)

/-- The distance of a copy: 1..32768 (R52, R100). -/
def wfCopyDist (dist : BitVec 16) : Bool := decide (1 ≤ dist.toNat) && decide (dist.toNat ≤ 32768)

/-- RD_REG reads any register but the three that have a row of their own: OUT_DATA (0x24, POP), CRC_VALUE (0x48,
RD_CRC_VALUE) and CRC_STATUS (0x50, RD_CRC_STATUS) (R106, R108, R210, R211). -/
def wfReadReg (k : BitVec 5) : Bool := k != 9 && k != 18 && k != 20

/-- An instruction term of the block. -/
def Instr.wf : Instr → Bool
  | .matchCopy len dist => wfCopyLen len && wfCopyDist dist
  | .rdReg k => wfReadReg k
  | .zhdrCmf _ | .zhdrFlg _ | .blockStored _ | .blockFixed _ | .blockDynamic _ | .blockReserved _
  | .storedHdr _ | .storedByte _ | .dynHdr _ | .dynClen _ | .clLen _ | .clRep16 _ | .clZero17 _ | .clZero18 _
  | .dynBuild | .lit _ | .eob | .len257 _ | .len258 _ | .len259 _ | .len260 _ | .len261 _ | .len262 _
  | .len263 _ | .len264 _ | .len265 _ | .len266 _ | .len267 _ | .len268 _ | .len269 _ | .len270 _ | .len271 _
  | .len272 _ | .len273 _ | .len274 _ | .len275 _ | .len276 _ | .len277 _ | .len278 _ | .len279 _ | .len280 _
  | .len281 _ | .len282 _ | .len283 _ | .len284 _ | .len285 _ | .llReserved _ | .dist0 _ | .dist1 _ | .dist2 _
  | .dist3 _ | .dist4 _ | .dist5 _ | .dist6 _ | .dist7 _ | .dist8 _ | .dist9 _ | .dist10 _ | .dist11 _
  | .dist12 _ | .dist13 _ | .dist14 _ | .dist15 _ | .dist16 _ | .dist17 _ | .dist18 _ | .dist19 _ | .dist20 _
  | .dist21 _ | .dist22 _ | .dist23 _ | .dist24 _ | .dist25 _ | .dist26 _ | .dist27 _ | .dist28 _ | .dist29 _
  | .dReserved _ | .trailer _ | .start | .eoi | .abort | .push _ | .pop | .wrConfig _ | .wrOutLimit _
  | .wrCrcExpect _ | .crcInit | .crcByte _ | .rdCrcValue | .rdCrcStatus => true

end Sys2Proof
end

