-- ==== Sys2Proof/Decode.lean ====
section
/-! DEFINITION. Decoding, total on any bits, and the encoder written from the same tables of 30_encoding.md. What an
item of the stream means depends on where INF is (R80, R97): a context `Ctx` says what is read next, and for a Huffman
code with which table and how far the code has been read. Host accesses decode by offset and bit (R97, R98). -/

namespace Sys2Proof

/-- A canonical-code table (R50, R122): how many symbols have each length 1..15, and the symbols with a code in the
order of their codes. -/
structure Table where
  /-- COUNT[1..15], COUNT[1] first. -/
  count : List (BitVec 9)
  /-- SYMS. -/
  syms : List (BitVec 9)
  /-- EMPTY (R124). -/
  empty : Bool
  /-- SINGLE (R124). -/
  single : Bool
  deriving DecidableEq, Repr

/-- The three tables (R50). -/
structure Tables where
  cl : Table
  ll : Table
  d : Table
  deriving DecidableEq, Repr

/-- HC_CODE, HC_FIRST, HC_INDEX, HC_LEN (R51). -/
structure Hc where
  code : BitVec 16
  first : BitVec 16
  index : BitVec 9
  len : BitVec 4
  deriving DecidableEq, Repr

/-- What INF reads next: the PHASE and the step within it (R21, R97). -/
inductive Ctx where
  | cmf
  | flg
  | bhdr
  | storedLen
  | storedNlen
  | storedByte
  | hlit
  | hdist
  | hclen
  | clen
  | clBuild
  | clSym (t : Table) (h : Hc)
  | rep16
  | zero17
  | zero18
  | dynBuild
  | llSym (t : Table) (h : Hc)
  | litEmit
  | lenExtra (sym : BitVec 9)
  | dSym (t : Table) (h : Hc)
  | distExtra (sym : BitVec 5)
  | copy (len : BitVec 9) (dist : BitVec 16)
  | trailer
  deriving DecidableEq, Repr

/-- Why bits do not decode. -/
inductive Reject where
  /-- The field needs more bits than are given. -/
  | short
  /-- The bits end inside a code, read as far as `h`. -/
  | more (h : Hc)
  /-- The bits are no codeword (R125, INVALID_CODE); `h` is what the failing step wrote. -/
  | invalidCode (h : Hc)
  /-- The code has no place in SYMS, or its symbol no row: no table a build writes does this (R58). -/
  | noSymbol
  deriving DecidableEq, Repr

/-- Why the block refuses a host access (R43, R74). -/
inductive HostReject where
  /-- Not a 32-bit access. -/
  | notAWord
  /-- Not at a multiple of 4. -/
  | misaligned
  /-- Outside the block's 128 bytes. -/
  | outside
  deriving DecidableEq, Repr

/-- The HC registers between codes (R51). -/
def Hc.zero : Hc := { code := 0, first := 0, index := 0, len := 0 }

/-- A table no build has written yet (log 6). -/
def Table.blank : Table := { count := List.replicate 15 0, syms := [], empty := false, single := false }

/-! ## Fields and codes as bits, in stream order -/

/-- The low n bits of v, least significant first: a data element in stream order (R59). -/
def natBits : Nat → Nat → List Bool
  | 0, _ => []
  | n + 1, v => (v % 2 == 1) :: natBits n (v / 2)

/-- The value of bits taken least significant first (R59). -/
def bitsVal : List Bool → Nat
  | [] => 0
  | b :: bs => b.toNat + 2 * bitsVal bs

/-- A field of n bits in stream order (R59). -/
def fieldBits {n : Nat} (v : BitVec n) : List Bool := natBits n v.toNat

/-- A code of n bits in stream order: most significant bit first (R60). -/
def codeBits (n v : Nat) : List Bool := (natBits n v).reverse

/-- Read an n-bit data element (R59, R62). -/
def readField (n : Nat) (bits : List Bool) : Except Reject (BitVec n × List Bool) :=
  if bits.length < n then .error .short else .ok (BitVec.ofNat n (bitsVal (bits.take n)), bits.drop n)

/-! ## Tables of 30_encoding.md -/

/-- LBASE and LEXTRA of length symbol 257 + i (R91). -/
def lenTable : List (Nat × Nat) :=
  [(3, 0), (4, 0), (5, 0), (6, 0), (7, 0), (8, 0), (9, 0), (10, 0), (11, 1), (13, 1), (15, 1), (17, 1),
   (19, 2), (23, 2), (27, 2), (31, 2), (35, 3), (43, 3), (51, 3), (59, 3), (67, 4), (83, 4), (99, 4), (115, 4),
   (131, 5), (163, 5), (195, 5), (227, 5), (258, 0)]

/-- DBASE and DEXTRA of distance symbol i (R92). -/
def distTable : List (Nat × Nat) :=
  [(1, 0), (2, 0), (3, 0), (4, 0), (5, 1), (7, 1), (9, 2), (13, 2), (17, 3), (25, 3), (33, 4), (49, 4),
   (65, 5), (97, 5), (129, 6), (193, 6), (257, 7), (385, 7), (513, 8), (769, 8), (1025, 9), (1537, 9),
   (2049, 10), (3073, 10), (4097, 11), (6145, 11), (8193, 12), (12289, 12), (16385, 13), (24577, 13)]

/-- CL_ORDER: the order in which the code-length code's lengths are sent (R90). -/
def clOrder : List Nat := [16, 17, 18, 0, 8, 7, 9, 6, 10, 5, 11, 4, 12, 3, 13, 2, 14, 1, 15]

/-- The symbols lo, lo + 1, ..., n of them. -/
def symRange (lo n : Nat) : List (BitVec 9) := (List.range n).map fun i => BitVec.ofNat 9 (lo + i)

/-- FIXED_LL_T (R127). -/
def fixedLL : Table :=
  { count := [0, 0, 0, 0, 0, 0, 24, 152, 112, 0, 0, 0, 0, 0, 0]
    syms := symRange 256 24 ++ symRange 0 144 ++ symRange 280 8 ++ symRange 144 112
    empty := false
    single := false }

/-- FIXED_D_T (R127). -/
def fixedD : Table :=
  { count := [0, 0, 0, 0, 32, 0, 0, 0, 0, 0, 0, 0, 0, 0, 0], syms := symRange 0 32, empty := false, single := false }

/-- The fixed literal/length code lengths (R93). -/
def fixedLLLens : List (BitVec 4) :=
  List.replicate 144 8 ++ List.replicate 112 9 ++ List.replicate 24 7 ++ List.replicate 8 8

/-- The fixed distance code lengths (R93). -/
def fixedDLens : List (BitVec 4) := List.replicate 32 5

/-! ## Building a table, and the canonical code -/

/-- BL_COUNT[l]: how many symbols have length l (R121, R122). -/
def lenCount (lens : List (BitVec 4)) (l : Nat) : Nat := lens.countP fun x => x.toNat == l

/-- The symbols of length l, in increasing order, counting from symbol s (R122). -/
def symsOfLen (l : Nat) : Nat → List (BitVec 4) → List (BitVec 9)
  | _, [] => []
  | s, x :: xs => if x.toNat = l then BitVec.ofNat 9 s :: symsOfLen l (s + 1) xs else symsOfLen l (s + 1) xs

/-- The lengths a code may have: 1..15 (R95). -/
def codeLens : List Nat := [1, 2, 3, 4, 5, 6, 7, 8, 9, 10, 11, 12, 13, 14, 15]

/-- Build without its validation (R122). -/
def buildTable (lens : List (BitVec 4)) : Table :=
  { count := codeLens.map fun l => BitVec.ofNat 9 (lenCount lens l)
    syms := codeLens.flatMap fun l => symsOfLen l 0 lens
    empty := false
    single := false }

/-- NEXT_CODE[l] before any code is given out (R121): the first code of length l. -/
def firstCode (lens : List (BitVec 4)) : Nat → Nat
  | 0 => 0
  | l + 1 => (firstCode lens l + if l = 0 then 0 else lenCount lens l) * 2

/-- CODE[s] of the canonical assignment (R121), for a used symbol s. -/
def canonicalCode (lens : List (BitVec 4)) (s : Nat) : Nat :=
  let l := (lens.getD s 0).toNat
  firstCode lens l + lenCount (lens.take s) l

/-- The Kraft check's `left` over the counts (R123): none once it is negative. -/
def kraftLeft : List Nat → Nat → Option Nat
  | [], left => some left
  | c :: cs, left => if 2 * left < c then none else kraftLeft cs (2 * left - c)

/-- `left` after the loop of R123 over T.COUNT: none when the set is over-subscribed. -/
def Table.left (t : Table) : Option Nat := kraftLeft (t.count.map BitVec.toNat) 1

/-! ## Decoding one code, bit by bit (R125) -/

/-- T.COUNT[l], 0 outside 1..15. -/
def Table.countOf (t : Table) (l : Nat) : Nat := if l = 0 then 0 else (t.count.getD (l - 1) 0).toNat

/-- What one bit of DecodeSym does. -/
inductive BitStep where
  | sym (s : Nat)
  | more (h : Hc)
  | invalid (h : Hc)
  | noSymbol
  deriving DecidableEq, Repr

/-- One step of DecodeSym after its bit is read (R125). -/
def codeBit (t : Table) (h : Hc) (b : Bool) : BitStep :=
  let code := h.code ||| BitVec.ofNat 16 b.toNat
  let len := h.len.toNat + 1
  let c := t.countOf len
  let h1 : Hc := { h with code := code, len := BitVec.ofNat 4 len }
  if code.toNat < h.first.toNat + c then
    match t.syms[h.index.toNat + code.toNat - h.first.toNat]? with
    | some s => .sym s.toNat
    | none => .noSymbol
  else if t.single then .invalid h1
  else if 15 ≤ len then .invalid h1
  else .more
    { code := code <<< 1
      first := BitVec.ofNat 16 ((h.first.toNat + c) * 2)
      index := BitVec.ofNat 9 (h.index.toNat + c)
      len := BitVec.ofNat 4 len }

/-- DecodeSym over the bits that follow the first test (R125). -/
def decodeBits (t : Table) : List Bool → Hc → Except Reject (Nat × List Bool)
  | [], h => .error (.more h)
  | b :: bs, h =>
    match codeBit t h b with
    | .sym s => .ok (s, bs)
    | .more h' => decodeBits t bs h'
    | .invalid h' => .error (.invalidCode h')
    | .noSymbol => .error .noSymbol

/-- The first step of DecodeSym finds the table EMPTY, before any bit (R125). -/
def emptyStop (t : Table) (h : Hc) : Bool := t.empty && h.len == 0

/-- DecodeSym from the HC registers h (R125). -/
def decodeCode (t : Table) (h : Hc) (bits : List Bool) : Except Reject (Nat × List Bool) :=
  if emptyStop t h then .error (.invalidCode h) else decodeBits t bits h

/-! ## From symbols to rows (R87, R88, R89, R97) -/

/-- The code step of length symbol 257 + i. -/
def lenCodeRow (i : Nat) : Option Instr :=
  [.len257 .code, .len258 .code, .len259 .code, .len260 .code, .len261 .code, .len262 .code, .len263 .code,
   .len264 .code, .len265 .code, .len266 .code, .len267 .code, .len268 .code, .len269 .code, .len270 .code,
   .len271 .code, .len272 .code, .len273 .code, .len274 .code, .len275 .code, .len276 .code, .len277 .code,
   .len278 .code, .len279 .code, .len280 .code, .len281 .code, .len282 .code, .len283 .code, .len284 .code,
   .len285 .code][i]?

/-- The extra-bits step of length symbol 257 + i, with extra value e. -/
def lenExtraRow (i e : Nat) : Option Instr :=
  match i with
  | 0 => some (.len257 (.extra (BitVec.ofNat _ e)))
  | 1 => some (.len258 (.extra (BitVec.ofNat _ e)))
  | 2 => some (.len259 (.extra (BitVec.ofNat _ e)))
  | 3 => some (.len260 (.extra (BitVec.ofNat _ e)))
  | 4 => some (.len261 (.extra (BitVec.ofNat _ e)))
  | 5 => some (.len262 (.extra (BitVec.ofNat _ e)))
  | 6 => some (.len263 (.extra (BitVec.ofNat _ e)))
  | 7 => some (.len264 (.extra (BitVec.ofNat _ e)))
  | 8 => some (.len265 (.extra (BitVec.ofNat _ e)))
  | 9 => some (.len266 (.extra (BitVec.ofNat _ e)))
  | 10 => some (.len267 (.extra (BitVec.ofNat _ e)))
  | 11 => some (.len268 (.extra (BitVec.ofNat _ e)))
  | 12 => some (.len269 (.extra (BitVec.ofNat _ e)))
  | 13 => some (.len270 (.extra (BitVec.ofNat _ e)))
  | 14 => some (.len271 (.extra (BitVec.ofNat _ e)))
  | 15 => some (.len272 (.extra (BitVec.ofNat _ e)))
  | 16 => some (.len273 (.extra (BitVec.ofNat _ e)))
  | 17 => some (.len274 (.extra (BitVec.ofNat _ e)))
  | 18 => some (.len275 (.extra (BitVec.ofNat _ e)))
  | 19 => some (.len276 (.extra (BitVec.ofNat _ e)))
  | 20 => some (.len277 (.extra (BitVec.ofNat _ e)))
  | 21 => some (.len278 (.extra (BitVec.ofNat _ e)))
  | 22 => some (.len279 (.extra (BitVec.ofNat _ e)))
  | 23 => some (.len280 (.extra (BitVec.ofNat _ e)))
  | 24 => some (.len281 (.extra (BitVec.ofNat _ e)))
  | 25 => some (.len282 (.extra (BitVec.ofNat _ e)))
  | 26 => some (.len283 (.extra (BitVec.ofNat _ e)))
  | 27 => some (.len284 (.extra (BitVec.ofNat _ e)))
  | 28 => some (.len285 (.extra (BitVec.ofNat _ e)))
  | _ => none

/-- The code step of distance symbol i. -/
def distCodeRow (i : Nat) : Option Instr :=
  [.dist0 .code, .dist1 .code, .dist2 .code, .dist3 .code, .dist4 .code, .dist5 .code, .dist6 .code,
   .dist7 .code, .dist8 .code, .dist9 .code, .dist10 .code, .dist11 .code, .dist12 .code, .dist13 .code,
   .dist14 .code, .dist15 .code, .dist16 .code, .dist17 .code, .dist18 .code, .dist19 .code, .dist20 .code,
   .dist21 .code, .dist22 .code, .dist23 .code, .dist24 .code, .dist25 .code, .dist26 .code, .dist27 .code,
   .dist28 .code, .dist29 .code][i]?

/-- The extra-bits step of distance symbol i, with extra value e. -/
def distExtraRow (i e : Nat) : Option Instr :=
  match i with
  | 0 => some (.dist0 (.extra (BitVec.ofNat _ e)))
  | 1 => some (.dist1 (.extra (BitVec.ofNat _ e)))
  | 2 => some (.dist2 (.extra (BitVec.ofNat _ e)))
  | 3 => some (.dist3 (.extra (BitVec.ofNat _ e)))
  | 4 => some (.dist4 (.extra (BitVec.ofNat _ e)))
  | 5 => some (.dist5 (.extra (BitVec.ofNat _ e)))
  | 6 => some (.dist6 (.extra (BitVec.ofNat _ e)))
  | 7 => some (.dist7 (.extra (BitVec.ofNat _ e)))
  | 8 => some (.dist8 (.extra (BitVec.ofNat _ e)))
  | 9 => some (.dist9 (.extra (BitVec.ofNat _ e)))
  | 10 => some (.dist10 (.extra (BitVec.ofNat _ e)))
  | 11 => some (.dist11 (.extra (BitVec.ofNat _ e)))
  | 12 => some (.dist12 (.extra (BitVec.ofNat _ e)))
  | 13 => some (.dist13 (.extra (BitVec.ofNat _ e)))
  | 14 => some (.dist14 (.extra (BitVec.ofNat _ e)))
  | 15 => some (.dist15 (.extra (BitVec.ofNat _ e)))
  | 16 => some (.dist16 (.extra (BitVec.ofNat _ e)))
  | 17 => some (.dist17 (.extra (BitVec.ofNat _ e)))
  | 18 => some (.dist18 (.extra (BitVec.ofNat _ e)))
  | 19 => some (.dist19 (.extra (BitVec.ofNat _ e)))
  | 20 => some (.dist20 (.extra (BitVec.ofNat _ e)))
  | 21 => some (.dist21 (.extra (BitVec.ofNat _ e)))
  | 22 => some (.dist22 (.extra (BitVec.ofNat _ e)))
  | 23 => some (.dist23 (.extra (BitVec.ofNat _ e)))
  | 24 => some (.dist24 (.extra (BitVec.ofNat _ e)))
  | 25 => some (.dist25 (.extra (BitVec.ofNat _ e)))
  | 26 => some (.dist26 (.extra (BitVec.ofNat _ e)))
  | 27 => some (.dist27 (.extra (BitVec.ofNat _ e)))
  | 28 => some (.dist28 (.extra (BitVec.ofNat _ e)))
  | 29 => some (.dist29 (.extra (BitVec.ofNat _ e)))
  | _ => none

/-- The row of literal/length symbol s (R87, R137). -/
def llRow (s : Nat) : Option Instr :=
  if s ≤ 255 then some (.lit (.code (BitVec.ofNat 8 s)))
  else if s = 256 then some .eob
  else if s ≤ 285 then lenCodeRow (s - 257)
  else if s ≤ 287 then some (.llReserved (BitVec.ofNat 1 (s - 286)))
  else none

/-- The row of distance symbol d (R88, R141). -/
def distRow (d : Nat) : Option Instr :=
  if d < 30 then distCodeRow d
  else if d < 32 then some (.dReserved (BitVec.ofNat 1 (d - 30)))
  else none

/-- The row of code-length symbol s (R89, R130). -/
def clRow (s : Nat) : Option Instr :=
  if s ≤ 15 then some (.clLen (BitVec.ofNat 4 s))
  else if s = 16 then some (.clRep16 .code)
  else if s = 17 then some (.clZero17 .code)
  else if s = 18 then some (.clZero18 .code)
  else none

/-- The row of a block header's three bits (R82, R117): BFINAL = v[0], BTYPE = v[2:1]. -/
def bhdrRow (v : BitVec 3) : Instr :=
  match v.toNat / 2 with
  | 0 => .blockStored (v.getLsbD 0)
  | 1 => .blockFixed (v.getLsbD 0)
  | 2 => .blockDynamic (v.getLsbD 0)
  | _ => .blockReserved (v.getLsbD 0)

/-- Turn a symbol read with a table into its row. -/
def symTo (row : Nat → Option Instr) (r : Except Reject (Nat × List Bool)) : Except Reject (Instr × List Bool) :=
  match r with
  | .error e => .error e
  | .ok (s, bits) =>
    match row s with
    | some i => .ok (i, bits)
    | none => .error .noSymbol

/-- Read an n-bit field and turn it into its row. -/
def fieldTo (n : Nat) (row : BitVec n → Instr) (bits : List Bool) : Except Reject (Instr × List Bool) :=
  match readField n bits with
  | .error e => .error e
  | .ok (v, rest) => .ok (row v, rest)

/-- Read the extra bits of entry i of a base/extra table (R91, R92) and turn them into a row. -/
def extraTo (tab : List (Nat × Nat)) (row : Nat → Nat → Option Instr) (i : Nat) (bits : List Bool) :
    Except Reject (Instr × List Bool) :=
  match tab[i]? with
  | none => .error .noSymbol
  | some (_, k) =>
    match readField k bits with
    | .error e => .error e
    | .ok (v, rest) =>
      match row i v.toNat with
      | some ins => .ok (ins, rest)
      | none => .error .noSymbol

/-- The length symbol's number in its table; 29, which is no entry, below 257. -/
def lenIndex (sym : BitVec 9) : Nat := if sym.toNat < 257 then 29 else sym.toNat - 257

/-! ## The decoder -/

/-- Decode the next step of the stream from bits in stream order (R80, R97); the bits it leaves come with it. -/
def decode (c : Ctx) (bits : List Bool) : Except Reject (Instr × List Bool) :=
  match c with
  | .cmf => fieldTo 8 (fun v => .zhdrCmf v) bits
  | .flg => fieldTo 8 (fun v => .zhdrFlg v) bits
  | .bhdr => fieldTo 3 bhdrRow bits
  | .storedLen => fieldTo 16 (fun v => .storedHdr (.len v)) bits
  | .storedNlen => fieldTo 16 (fun v => .storedHdr (.nlen v)) bits
  | .storedByte => fieldTo 8 (fun v => .storedByte v) bits
  | .hlit => fieldTo 5 (fun v => .dynHdr (.hlit v)) bits
  | .hdist => fieldTo 5 (fun v => .dynHdr (.hdist v)) bits
  | .hclen => fieldTo 4 (fun v => .dynHdr (.hclen v)) bits
  | .clen => fieldTo 3 (fun v => .dynClen (.field v)) bits
  | .clBuild => .ok (.dynClen .build, bits)
  | .clSym t h => symTo clRow (decodeCode t h bits)
  | .rep16 => fieldTo 2 (fun v => .clRep16 (.extra v)) bits
  | .zero17 => fieldTo 3 (fun v => .clZero17 (.extra v)) bits
  | .zero18 => fieldTo 7 (fun v => .clZero18 (.extra v)) bits
  | .dynBuild => .ok (.dynBuild, bits)
  | .llSym t h => symTo llRow (decodeCode t h bits)
  | .litEmit => .ok (.lit .emit, bits)
  | .lenExtra sym => extraTo lenTable lenExtraRow (lenIndex sym) bits
  | .dSym t h => symTo distRow (decodeCode t h bits)
  | .distExtra sym => extraTo distTable distExtraRow sym.toNat bits
  | .copy len dist => .ok (.matchCopy len dist, bits)
  | .trailer => fieldTo 8 (fun v => .trailer v) bits

/-- How many bits the step of a context reads (R13): a code is read one bit a step (R125). -/
def Ctx.need (c : Ctx) : Nat :=
  match c with
  | .cmf | .flg | .storedByte | .trailer => 8
  | .bhdr | .clen | .zero17 => 3
  | .storedLen | .storedNlen => 16
  | .hlit | .hdist => 5
  | .hclen => 4
  | .rep16 => 2
  | .zero18 => 7
  | .clBuild | .dynBuild | .litEmit | .copy _ _ => 0
  | .clSym t h | .llSym t h | .dSym t h => if emptyStop t h then 0 else 1
  | .lenExtra sym => (lenTable.getD (lenIndex sym) (0, 0)).2
  | .distExtra sym => (distTable.getD sym.toNat (0, 0)).2

/-! ## Host accesses -/

/-- The commands of a CTRL write, in the order they are performed: ABORT, START, EOI (R24). -/
def ctrlRows (v : Word) : List Instr :=
  (if v.getLsbD 2 then [.abort] else []) ++ (if v.getLsbD 0 then [.start] else []) ++
    (if v.getLsbD 1 then [.eoi] else [])

/-- The rows of a write to the register of word number k (R23, R98): none where a write changes nothing (R43, R108). -/
def writeRows (k : Nat) (v : Word) : List Instr :=
  match k with
  | 0 => ctrlRows v
  | 1 => [.wrConfig v]
  | 7 => [.wrOutLimit v]
  | 8 => [.push (v.setWidth 8)]
  | 16 => if v.getLsbD 0 then [.crcInit] else []
  | 17 => [.crcByte (v.setWidth 8)]
  | 19 => [.wrCrcExpect v]
  | _ => []

/-- The row of a read of the register of word number k (R98, R108). -/
def readRow (k : Nat) : Instr :=
  match k with
  | 9 => .pop
  | 18 => .rdCrcValue
  | 20 => .rdCrcStatus
  | _ => .rdReg (BitVec.ofNat 5 k)

/-- The word number of an address, where the access is one of the interface (R43, R69, R74). -/
def regIndex (base addr width : Nat) : Except HostReject Nat :=
  if width ≠ 4 then .error .notAWord
  else if addr < base ∨ base + Config.regSpace ≤ addr then .error .outside
  else if (addr - base) % 4 ≠ 0 then .error .misaligned
  else .ok ((addr - base) / 4)

/-- The rows a host access performs, in order, as one atomic step (R24, R74). -/
def decodeHost (base : Nat) (a : Access) : Except HostReject (List Instr) :=
  match a with
  | .read addr width =>
    match regIndex base addr width with
    | .error e => .error e
    | .ok k => .ok [readRow k]
  | .write addr width v =>
    match regIndex base addr width with
    | .error e => .error e
    | .ok k => .ok (writeRows k v)

/-! ## The encoder -/

/-- The place of a symbol in SYMS. -/
def symPlace (s : Nat) : List (BitVec 9) → Option Nat
  | [] => none
  | x :: xs => if x.toNat = s then some 0 else (symPlace s xs).map (· + 1)

/-- The code at place k among the codes of length l and more, whose first code of length l is `first` (R121): its
length and its value. -/
def codeAt : List Nat → Nat → Nat → Nat → Option (Nat × Nat)
  | [], _, _, _ => none
  | c :: cs, l, first, k => if k < c then some (l, first + k) else codeAt cs (l + 1) ((first + c) * 2) (k - c)

/-- The code of symbol s in table t, in stream order (R60, R121); no bits where s has no code. -/
def symBits (t : Table) (s : Nat) : List Bool :=
  match symPlace s t.syms with
  | none => []
  | some k =>
    match codeAt (t.count.map BitVec.toNat) 1 0 k with
    | none => []
    | some (l, v) => codeBits l v

/-- The step of a length or distance symbol: its code, or its extra bits (R140, R142). -/
def stepBits {k : Nat} (code : List Bool) : SymStep k → List Bool
  | .code => code
  | .extra e => fieldBits e

/-- The bits of a step of the stream, in stream order, its codes taken from the tables ts; host rows have none. -/
def encode (ts : Tables) (i : Instr) : List Bool :=
  match i with
  | .zhdrCmf v => fieldBits v
  | .zhdrFlg v => fieldBits v
  | .blockStored f => [f, false, false]
  | .blockFixed f => [f, true, false]
  | .blockDynamic f => [f, false, true]
  | .blockReserved f => [f, true, true]
  | .storedHdr (.len v) => fieldBits v
  | .storedHdr (.nlen v) => fieldBits v
  | .storedByte v => fieldBits v
  | .dynHdr (.hlit v) => fieldBits v
  | .dynHdr (.hdist v) => fieldBits v
  | .dynHdr (.hclen v) => fieldBits v
  | .dynClen (.field v) => fieldBits v
  | .dynClen .build => []
  | .clLen s => symBits ts.cl s.toNat
  | .clRep16 f => stepBits (symBits ts.cl 16) f
  | .clZero17 f => stepBits (symBits ts.cl 17) f
  | .clZero18 f => stepBits (symBits ts.cl 18) f
  | .dynBuild => []
  | .lit (.code b) => symBits ts.ll b.toNat
  | .lit .emit => []
  | .eob => symBits ts.ll 256
  | .len257 f => stepBits (symBits ts.ll 257) f
  | .len258 f => stepBits (symBits ts.ll 258) f
  | .len259 f => stepBits (symBits ts.ll 259) f
  | .len260 f => stepBits (symBits ts.ll 260) f
  | .len261 f => stepBits (symBits ts.ll 261) f
  | .len262 f => stepBits (symBits ts.ll 262) f
  | .len263 f => stepBits (symBits ts.ll 263) f
  | .len264 f => stepBits (symBits ts.ll 264) f
  | .len265 f => stepBits (symBits ts.ll 265) f
  | .len266 f => stepBits (symBits ts.ll 266) f
  | .len267 f => stepBits (symBits ts.ll 267) f
  | .len268 f => stepBits (symBits ts.ll 268) f
  | .len269 f => stepBits (symBits ts.ll 269) f
  | .len270 f => stepBits (symBits ts.ll 270) f
  | .len271 f => stepBits (symBits ts.ll 271) f
  | .len272 f => stepBits (symBits ts.ll 272) f
  | .len273 f => stepBits (symBits ts.ll 273) f
  | .len274 f => stepBits (symBits ts.ll 274) f
  | .len275 f => stepBits (symBits ts.ll 275) f
  | .len276 f => stepBits (symBits ts.ll 276) f
  | .len277 f => stepBits (symBits ts.ll 277) f
  | .len278 f => stepBits (symBits ts.ll 278) f
  | .len279 f => stepBits (symBits ts.ll 279) f
  | .len280 f => stepBits (symBits ts.ll 280) f
  | .len281 f => stepBits (symBits ts.ll 281) f
  | .len282 f => stepBits (symBits ts.ll 282) f
  | .len283 f => stepBits (symBits ts.ll 283) f
  | .len284 f => stepBits (symBits ts.ll 284) f
  | .len285 f => stepBits (symBits ts.ll 285) f
  | .llReserved x => symBits ts.ll (286 + x.toNat)
  | .dist0 f => stepBits (symBits ts.d 0) f
  | .dist1 f => stepBits (symBits ts.d 1) f
  | .dist2 f => stepBits (symBits ts.d 2) f
  | .dist3 f => stepBits (symBits ts.d 3) f
  | .dist4 f => stepBits (symBits ts.d 4) f
  | .dist5 f => stepBits (symBits ts.d 5) f
  | .dist6 f => stepBits (symBits ts.d 6) f
  | .dist7 f => stepBits (symBits ts.d 7) f
  | .dist8 f => stepBits (symBits ts.d 8) f
  | .dist9 f => stepBits (symBits ts.d 9) f
  | .dist10 f => stepBits (symBits ts.d 10) f
  | .dist11 f => stepBits (symBits ts.d 11) f
  | .dist12 f => stepBits (symBits ts.d 12) f
  | .dist13 f => stepBits (symBits ts.d 13) f
  | .dist14 f => stepBits (symBits ts.d 14) f
  | .dist15 f => stepBits (symBits ts.d 15) f
  | .dist16 f => stepBits (symBits ts.d 16) f
  | .dist17 f => stepBits (symBits ts.d 17) f
  | .dist18 f => stepBits (symBits ts.d 18) f
  | .dist19 f => stepBits (symBits ts.d 19) f
  | .dist20 f => stepBits (symBits ts.d 20) f
  | .dist21 f => stepBits (symBits ts.d 21) f
  | .dist22 f => stepBits (symBits ts.d 22) f
  | .dist23 f => stepBits (symBits ts.d 23) f
  | .dist24 f => stepBits (symBits ts.d 24) f
  | .dist25 f => stepBits (symBits ts.d 25) f
  | .dist26 f => stepBits (symBits ts.d 26) f
  | .dist27 f => stepBits (symBits ts.d 27) f
  | .dist28 f => stepBits (symBits ts.d 28) f
  | .dist29 f => stepBits (symBits ts.d 29) f
  | .dReserved x => symBits ts.d (30 + x.toNat)
  | .matchCopy _ _ => []
  | .trailer v => fieldBits v
  | .start | .eoi | .abort | .push _ | .pop | .wrConfig _ | .wrOutLimit _ | .wrCrcExpect _ | .rdReg _ | .crcInit
  | .crcByte _ | .rdCrcValue | .rdCrcStatus => []

/-- The context of a step of a length or distance symbol. -/
def stepCtx {k : Nat} (code extra : Ctx) : SymStep k → Ctx
  | .code => code
  | .extra _ => extra

/-- The context in which a stream row's step is read, its codes with the tables ts; none for a host row. -/
def Instr.ctx (ts : Tables) (i : Instr) : Option Ctx :=
  match i with
  | .zhdrCmf _ => some .cmf
  | .zhdrFlg _ => some .flg
  | .blockStored _ | .blockFixed _ | .blockDynamic _ | .blockReserved _ => some .bhdr
  | .storedHdr (.len _) => some .storedLen
  | .storedHdr (.nlen _) => some .storedNlen
  | .storedByte _ => some .storedByte
  | .dynHdr (.hlit _) => some .hlit
  | .dynHdr (.hdist _) => some .hdist
  | .dynHdr (.hclen _) => some .hclen
  | .dynClen (.field _) => some .clen
  | .dynClen .build => some .clBuild
  | .clLen _ => some (.clSym ts.cl Hc.zero)
  | .clRep16 f => some (stepCtx (.clSym ts.cl Hc.zero) .rep16 f)
  | .clZero17 f => some (stepCtx (.clSym ts.cl Hc.zero) .zero17 f)
  | .clZero18 f => some (stepCtx (.clSym ts.cl Hc.zero) .zero18 f)
  | .dynBuild => some .dynBuild
  | .lit (.code _) => some (.llSym ts.ll Hc.zero)
  | .lit .emit => some .litEmit
  | .eob | .llReserved _ => some (.llSym ts.ll Hc.zero)
  | .len257 f => some (stepCtx (.llSym ts.ll Hc.zero) (.lenExtra 257) f)
  | .len258 f => some (stepCtx (.llSym ts.ll Hc.zero) (.lenExtra 258) f)
  | .len259 f => some (stepCtx (.llSym ts.ll Hc.zero) (.lenExtra 259) f)
  | .len260 f => some (stepCtx (.llSym ts.ll Hc.zero) (.lenExtra 260) f)
  | .len261 f => some (stepCtx (.llSym ts.ll Hc.zero) (.lenExtra 261) f)
  | .len262 f => some (stepCtx (.llSym ts.ll Hc.zero) (.lenExtra 262) f)
  | .len263 f => some (stepCtx (.llSym ts.ll Hc.zero) (.lenExtra 263) f)
  | .len264 f => some (stepCtx (.llSym ts.ll Hc.zero) (.lenExtra 264) f)
  | .len265 f => some (stepCtx (.llSym ts.ll Hc.zero) (.lenExtra 265) f)
  | .len266 f => some (stepCtx (.llSym ts.ll Hc.zero) (.lenExtra 266) f)
  | .len267 f => some (stepCtx (.llSym ts.ll Hc.zero) (.lenExtra 267) f)
  | .len268 f => some (stepCtx (.llSym ts.ll Hc.zero) (.lenExtra 268) f)
  | .len269 f => some (stepCtx (.llSym ts.ll Hc.zero) (.lenExtra 269) f)
  | .len270 f => some (stepCtx (.llSym ts.ll Hc.zero) (.lenExtra 270) f)
  | .len271 f => some (stepCtx (.llSym ts.ll Hc.zero) (.lenExtra 271) f)
  | .len272 f => some (stepCtx (.llSym ts.ll Hc.zero) (.lenExtra 272) f)
  | .len273 f => some (stepCtx (.llSym ts.ll Hc.zero) (.lenExtra 273) f)
  | .len274 f => some (stepCtx (.llSym ts.ll Hc.zero) (.lenExtra 274) f)
  | .len275 f => some (stepCtx (.llSym ts.ll Hc.zero) (.lenExtra 275) f)
  | .len276 f => some (stepCtx (.llSym ts.ll Hc.zero) (.lenExtra 276) f)
  | .len277 f => some (stepCtx (.llSym ts.ll Hc.zero) (.lenExtra 277) f)
  | .len278 f => some (stepCtx (.llSym ts.ll Hc.zero) (.lenExtra 278) f)
  | .len279 f => some (stepCtx (.llSym ts.ll Hc.zero) (.lenExtra 279) f)
  | .len280 f => some (stepCtx (.llSym ts.ll Hc.zero) (.lenExtra 280) f)
  | .len281 f => some (stepCtx (.llSym ts.ll Hc.zero) (.lenExtra 281) f)
  | .len282 f => some (stepCtx (.llSym ts.ll Hc.zero) (.lenExtra 282) f)
  | .len283 f => some (stepCtx (.llSym ts.ll Hc.zero) (.lenExtra 283) f)
  | .len284 f => some (stepCtx (.llSym ts.ll Hc.zero) (.lenExtra 284) f)
  | .len285 f => some (stepCtx (.llSym ts.ll Hc.zero) (.lenExtra 285) f)
  | .dist0 f => some (stepCtx (.dSym ts.d Hc.zero) (.distExtra 0) f)
  | .dist1 f => some (stepCtx (.dSym ts.d Hc.zero) (.distExtra 1) f)
  | .dist2 f => some (stepCtx (.dSym ts.d Hc.zero) (.distExtra 2) f)
  | .dist3 f => some (stepCtx (.dSym ts.d Hc.zero) (.distExtra 3) f)
  | .dist4 f => some (stepCtx (.dSym ts.d Hc.zero) (.distExtra 4) f)
  | .dist5 f => some (stepCtx (.dSym ts.d Hc.zero) (.distExtra 5) f)
  | .dist6 f => some (stepCtx (.dSym ts.d Hc.zero) (.distExtra 6) f)
  | .dist7 f => some (stepCtx (.dSym ts.d Hc.zero) (.distExtra 7) f)
  | .dist8 f => some (stepCtx (.dSym ts.d Hc.zero) (.distExtra 8) f)
  | .dist9 f => some (stepCtx (.dSym ts.d Hc.zero) (.distExtra 9) f)
  | .dist10 f => some (stepCtx (.dSym ts.d Hc.zero) (.distExtra 10) f)
  | .dist11 f => some (stepCtx (.dSym ts.d Hc.zero) (.distExtra 11) f)
  | .dist12 f => some (stepCtx (.dSym ts.d Hc.zero) (.distExtra 12) f)
  | .dist13 f => some (stepCtx (.dSym ts.d Hc.zero) (.distExtra 13) f)
  | .dist14 f => some (stepCtx (.dSym ts.d Hc.zero) (.distExtra 14) f)
  | .dist15 f => some (stepCtx (.dSym ts.d Hc.zero) (.distExtra 15) f)
  | .dist16 f => some (stepCtx (.dSym ts.d Hc.zero) (.distExtra 16) f)
  | .dist17 f => some (stepCtx (.dSym ts.d Hc.zero) (.distExtra 17) f)
  | .dist18 f => some (stepCtx (.dSym ts.d Hc.zero) (.distExtra 18) f)
  | .dist19 f => some (stepCtx (.dSym ts.d Hc.zero) (.distExtra 19) f)
  | .dist20 f => some (stepCtx (.dSym ts.d Hc.zero) (.distExtra 20) f)
  | .dist21 f => some (stepCtx (.dSym ts.d Hc.zero) (.distExtra 21) f)
  | .dist22 f => some (stepCtx (.dSym ts.d Hc.zero) (.distExtra 22) f)
  | .dist23 f => some (stepCtx (.dSym ts.d Hc.zero) (.distExtra 23) f)
  | .dist24 f => some (stepCtx (.dSym ts.d Hc.zero) (.distExtra 24) f)
  | .dist25 f => some (stepCtx (.dSym ts.d Hc.zero) (.distExtra 25) f)
  | .dist26 f => some (stepCtx (.dSym ts.d Hc.zero) (.distExtra 26) f)
  | .dist27 f => some (stepCtx (.dSym ts.d Hc.zero) (.distExtra 27) f)
  | .dist28 f => some (stepCtx (.dSym ts.d Hc.zero) (.distExtra 28) f)
  | .dist29 f => some (stepCtx (.dSym ts.d Hc.zero) (.distExtra 29) f)
  | .dReserved _ => some (.dSym ts.d Hc.zero)
  | .matchCopy len dist => some (.copy len dist)
  | .trailer _ => some .trailer
  | .start | .eoi | .abort | .push _ | .pop | .wrConfig _ | .wrOutLimit _ | .wrCrcExpect _ | .rdReg _ | .crcInit
  | .crcByte _ | .rdCrcValue | .rdCrcStatus => none

/-- The access that performs a host row (R98, R102 to R108, R208 to R211); none for a stream row. -/
def encodeHost (base : Nat) (i : Instr) : Option Access :=
  match i with
  | .start => some (.write base 4 1)
  | .eoi => some (.write base 4 2)
  | .abort => some (.write base 4 4)
  | .push b => some (.write (base + 0x20) 4 (b.setWidth 32))
  | .pop => some (.read (base + 0x24) 4)
  | .wrConfig v => some (.write (base + 0x04) 4 v)
  | .wrOutLimit v => some (.write (base + 0x1C) 4 v)
  | .wrCrcExpect v => some (.write (base + 0x4C) 4 v)
  | .rdReg k => some (.read (base + 4 * k.toNat) 4)
  | .crcInit => some (.write (base + 0x40) 4 1)
  | .crcByte b => some (.write (base + 0x44) 4 (b.setWidth 32))
  | .rdCrcValue => some (.read (base + 0x48) 4)
  | .rdCrcStatus => some (.read (base + 0x50) 4)
  | .zhdrCmf _ | .zhdrFlg _ | .blockStored _ | .blockFixed _ | .blockDynamic _ | .blockReserved _ | .storedHdr _
  | .storedByte _ | .dynHdr _ | .dynClen _ | .clLen _ | .clRep16 _ | .clZero17 _ | .clZero18 _ | .dynBuild | .lit _
  | .eob | .llReserved _ | .dReserved _ | .matchCopy _ _ | .trailer _
  | .len257 _ | .len258 _ | .len259 _ | .len260 _ | .len261 _ | .len262 _ | .len263 _ | .len264 _ | .len265 _
  | .len266 _ | .len267 _ | .len268 _ | .len269 _ | .len270 _ | .len271 _ | .len272 _ | .len273 _ | .len274 _
  | .len275 _ | .len276 _ | .len277 _ | .len278 _ | .len279 _ | .len280 _ | .len281 _ | .len282 _ | .len283 _
  | .len284 _ | .len285 _
  | .dist0 _ | .dist1 _ | .dist2 _ | .dist3 _ | .dist4 _ | .dist5 _ | .dist6 _ | .dist7 _ | .dist8 _ | .dist9 _
  | .dist10 _ | .dist11 _ | .dist12 _ | .dist13 _ | .dist14 _ | .dist15 _ | .dist16 _ | .dist17 _ | .dist18 _
  | .dist19 _ | .dist20 _ | .dist21 _ | .dist22 _ | .dist23 _ | .dist24 _ | .dist25 _ | .dist26 _ | .dist27 _
  | .dist28 _ | .dist29 _ => none

/-- `MATCH len dist` of the trace notation (R100): the four fields it stands for. Length 258 is symbol 285. -/
def pairSym (tab : List (Nat × Nat)) (v : Nat) : Option (Nat × Nat) :=
  (List.range tab.length).findSome? fun i =>
    let j := tab.length - 1 - i
    match tab[j]? with
    | some (b, _) => if b ≤ v then some (j, v - b) else none
    | none => none

/-- The stream rows `MATCH len dist` stands for, in stream order (R100); none outside 3..258 and 1..32768. -/
def matchRows (len dist : Nat) : Option (List Instr) :=
  if 3 ≤ len ∧ len ≤ 258 ∧ 1 ≤ dist ∧ dist ≤ Config.wsize then
    match pairSym lenTable len, pairSym distTable dist with
    | some (i, e), some (d, f) =>
      match lenCodeRow i, lenExtraRow i e, distCodeRow d, distExtraRow d f with
      | some a, some b, some c, some g => some [a, b, c, g]
      | _, _, _, _ => none
    | _, _ => none
  else none

/-! ## Words as spec/opcode_table.json numbers them (log 14) -/

/-- Where a table word is read: in a context, from bits in stream order, or as a host access. -/
inductive TableWord where
  | stream (c : Ctx) (bits : List Bool)
  | host (a : Access)
  deriving DecidableEq, Repr

/-- The row's extra bits after its code, for the rows that begin with a code. -/
def Instr.extraWidth : Instr → Nat
  | .len265 _ | .len266 _ | .len267 _ | .len268 _ | .dist4 _ | .dist5 _ => 1
  | .len269 _ | .len270 _ | .len271 _ | .len272 _ | .dist6 _ | .dist7 _ => 2
  | .len273 _ | .len274 _ | .len275 _ | .len276 _ | .dist8 _ | .dist9 _ => 3
  | .len277 _ | .len278 _ | .len279 _ | .len280 _ | .dist10 _ | .dist11 _ => 4
  | .len281 _ | .len282 _ | .len283 _ | .len284 _ | .dist12 _ | .dist13 _ => 5
  | .dist14 _ | .dist15 _ => 6
  | .dist16 _ | .dist17 _ => 7
  | .dist18 _ | .dist19 _ => 8
  | .dist20 _ | .dist21 _ => 9
  | .dist22 _ | .dist23 _ => 10
  | .dist24 _ | .dist25 _ => 11
  | .dist26 _ | .dist27 _ => 12
  | .dist28 _ | .dist29 _ => 13
  | _ => 0

/-- Whether the row is a literal. -/
def Instr.isLit : Instr → Bool
  | .lit _ => true
  | _ => false

/-- A row of the fixed code whose width is exactly `width`: its code and then its extra bits, the first stream bit the
most significant bit of w (R98). -/
def symWord (c : Ctx) (lits : Bool) (w width : Nat) : Option TableWord :=
  if 2 ^ width ≤ w then none
  else
    match decode c (codeBits width w) with
    | .ok (i, rest) => if rest.length = i.extraWidth ∧ i.isLit = lits then some (.stream c (codeBits width w)) else none
    | .error _ => none

/-- The widths a row may have whose bits are given as nbits: nbits itself, or one that nbits rounds up to whole bytes. -/
def rowWidths (nbits : Nat) : List Nat :=
  (List.range 33).filter fun width => width == nbits || (width + 7) / 8 * 8 == nbits

/-- A field row of a fixed width. -/
def fieldWord (nbits w : Nat) (c : Ctx) (width mask pattern : Nat) : Option TableWord :=
  if (rowWidths nbits).contains width && decide (w < 2 ^ width) && (w &&& mask) == pattern then
    some (.stream c (codeBits width w))
  else none

/-- A 32-bit row is a CTRL write where it is one command bit and STORED_HDR otherwise; 40 bits are a whole host access:
the word, then the 7-bit offset, then 1 for a read (log 14). -/
def hostWord (nbits w : Nat) : Option TableWord :=
  if nbits = 32 ∧ (w = 1 ∨ w = 2 ∨ w = 4) then some (.host (.write 0 4 (BitVec.ofNat 32 w)))
  else if nbits = 40 then
    if w / 2 ^ 39 % 2 = 1 then some (.host (.read (w / 2 ^ 32 % 128) 4))
    else some (.host (.write (w / 2 ^ 32 % 128) 4 (BitVec.ofNat 32 w)))
  else none

/-- Where a table word is read. The bits alone do not name a row (R80, R97): the first form that fits is taken, the
most specific rows first (log 14). -/
def tableWord (nbits w : Nat) : Option TableWord :=
  hostWord nbits w
    <|> (rowWidths nbits).findSome? (symWord (.llSym fixedLL Hc.zero) false w)
    <|> (rowWidths nbits).findSome? (symWord (.dSym fixedD Hc.zero) false w)
    <|> (rowWidths nbits).findSome? (symWord (.llSym fixedLL Hc.zero) true w)
    <|> fieldWord nbits w .cmf 8 0xF0 0x10
    <|> fieldWord nbits w .bhdr 3 0 0
    <|> fieldWord nbits w .hlit 14 0 0
    <|> fieldWord nbits w .storedByte 8 0 0
    <|> fieldWord nbits w .storedLen 32 0 0
    <|> (if nbits = 0 then some (.stream .dynBuild []) else none)

/-- The instruction the decoder reads from a word numbered as spec/opcode_table.json numbers it (log 14). -/
def decodeTableWord (nbits w : Nat) : Option Instr :=
  match tableWord nbits w with
  | none => none
  | some (.stream c bits) => (decode c bits).toOption.map Prod.fst
  | some (.host a) => (decodeHost 0 a).toOption.bind List.head?

end Sys2Proof
end

