-- ==== Sys2Proof/Machine/State.lean ====
section
/-! DEFINITION. The state of one RIMG-INFLATE block: everything 10_state.md gives it, as plain data, with the reset of
R227. Three fields are the model's own: `sub`, `agenda` and `rdata` (log 1, log 7, log 8). -/

namespace Sys2Proof.Machine

/-- STATE (R20). -/
inductive Top where
  | idle
  | running
  | done
  | failed
  deriving DecidableEq, Repr

/-- PHASE, codes 0..14 in this order (R21). -/
inductive Phase where
  | zhdr
  | bhdr
  | storedHdr
  | storedCopy
  | dynHdr
  | dynCl
  | dynLens
  | dynBuild
  | sym
  | lextra
  | dist
  | dextra
  | copy
  | trailer
  | lit
  deriving DecidableEq, Repr

/-- The error kinds (R16, R213). The block never raises `structural`. -/
inductive ErrKind where
  | format
  | structural
  | truncated
  | integrity
  | corrupt
  | unsupported
  | limit
  | hostProtocol
  deriving DecidableEq, Repr

/-- The causes, 1..26 in this order (R213). -/
inductive ErrCause where
  | zlibFcheck
  | zlibCm
  | zlibCinfo
  | zlibFdict
  | btypeReserved
  | storedNlen
  | dynCounts
  | clOversub
  | clIncomplete
  | repNoPrev
  | repOverflow
  | noEob
  | llOversub
  | llIncomplete
  | dOversub
  | dIncomplete
  | invalidCode
  | badLLSym
  | badDSym
  | distTooFar
  | truncated
  | adlerMismatch
  | outLimit
  | countWrap
  | inOverrun
  | inAfterEoi
  deriving DecidableEq, Repr

/-- CONFIG, OUT_LIMIT and what START latches of them (R25, R29, R44). -/
structure Ctl where
  /-- CONFIG: bit 0 IRQ_EN, bit 1 ALLOW_RFC_DIST. -/
  config : BitVec 2
  /-- OUT_LIMIT. -/
  outLimit : Word
  /-- ALLOW. -/
  allow : Bool
  /-- LIM. -/
  lim : Word
  deriving DecidableEq, Repr

/-- The error registers (R27, R55). -/
structure Err where
  /-- ERR_KIND. -/
  kind : BitVec 4
  /-- ERR_CAUSE. -/
  cause : BitVec 8
  /-- ERR_BITS. -/
  bits : BitVec 5
  /-- ERR_BYTE. -/
  byte : Word
  deriving DecidableEq, Repr

/-- The input FIFO and the bit reader (R28, R45, R46). -/
structure Input where
  /-- IN_FIFO, the oldest byte first. -/
  fifo : List Byte
  /-- BITBUF, the next bit in bit 0. -/
  buf : BitVec 24
  /-- BITCNT. -/
  cnt : BitVec 5
  /-- IN_COUNT. -/
  count : Word
  deriving DecidableEq, Repr

/-- Everything an emit writes (R28, R45, R53, R54). -/
structure Output where
  /-- OUT_FIFO, the oldest byte first. -/
  fifo : List Byte
  /-- OUT_COUNT. -/
  count : Word
  /-- WIN: the cells written, by cell number, strictly rising (R66; log 5). -/
  win : List Host.Cell
  /-- WP. -/
  wp : BitVec 15
  /-- HIST_VALID. -/
  hist : BitVec 16
  /-- ADLER_S1. -/
  s1 : BitVec 16
  /-- ADLER_S2. -/
  s2 : BitVec 16
  deriving DecidableEq, Repr

/-- The zlib header and trailer registers (R47). -/
structure Zlib where
  /-- CMF. -/
  cmf : Byte
  /-- FLG. -/
  flg : Byte
  /-- TRAILER_VAL. -/
  trailerVal : Word
  /-- TRAILER_N. -/
  trailerN : BitVec 3
  deriving DecidableEq, Repr

/-- The block registers and the code-length arrays (R48, R49). -/
structure Block where
  /-- BFINAL. -/
  bfinal : Bool
  /-- BTYPE. -/
  btype : BitVec 2
  /-- STORED_REM. -/
  storedRem : BitVec 16
  /-- NLEN. -/
  nlen : BitVec 9
  /-- NDIST. -/
  ndist : BitVec 6
  /-- NCODE. -/
  ncode : BitVec 5
  /-- LEN_IDX. -/
  lenIdx : BitVec 9
  /-- CL_SYM. -/
  clSym : BitVec 5
  /-- CL_LENS[0..18], by code-length symbol. -/
  clLens : List (BitVec 3)
  /-- LENS[0..319]. -/
  lens : List (BitVec 4)
  deriving DecidableEq, Repr

/-- The copy engine and the other symbol registers (R52). -/
structure Copy where
  /-- COPY_LEN. -/
  len : BitVec 9
  /-- COPY_DIST. -/
  dist : BitVec 16
  /-- PEND_LEN. -/
  pendLen : BitVec 9
  /-- L_SYM. -/
  lSym : BitVec 9
  /-- D_SYM. -/
  dSym : BitVec 5
  /-- LIT_BYTE. -/
  litByte : Byte
  deriving DecidableEq, Repr

/-- The CRC unit (R56). -/
structure Crc where
  /-- CRC_REG. -/
  reg : Word
  /-- CRC_EXPECT. -/
  expect : Word
  /-- CRC_COUNT. -/
  count : Word
  deriving DecidableEq, Repr

/-- The state of one block. -/
structure State where
  /-- The open parameters (R7); no step writes them. -/
  cfg : Config
  /-- The turns still to come, the next one first; empty means INF moves (R75; log 1). -/
  agenda : List Turn
  /-- The value the last host read returned (log 8). -/
  rdata : Word
  /-- STATE. -/
  top : Top
  /-- PHASE. -/
  phase : Phase
  /-- Which numbered step of the phase comes next (R111, R119, R128; log 7). -/
  sub : BitVec 2
  /-- EOI_SEEN (R22). -/
  eoiSeen : Bool
  /-- IN_DROP (R22). -/
  inDrop : Bool
  /-- HELD_IN (R22, R218). -/
  heldIn : Bool
  /-- HELD_OUT (R22, R218). -/
  heldOut : Bool
  ctl : Ctl
  err : Err
  inp : Input
  out : Output
  zl : Zlib
  blk : Block
  /-- CL_T, LL_T, D_T (R50). -/
  tabs : Tables
  /-- The HC registers (R51). -/
  hc : Hc
  copy : Copy
  crc : Crc
  deriving DecidableEq, Repr

/-- Why the model stops. No run from reset reaches one (R58): each is raised on states that the rules say do not occur. -/
inductive Fault where
  /-- MATCH with COPY_DIST = 0 or above HIST_VALID: R68 makes it a fault of the model, never a value. Safe. -/
  | winReadOutOfRange (dist : Nat)
  /-- MATCH of a window cell that holds no value (R58, R68; log 5). Safe. -/
  | winUnwritten (cell : Nat)
  /-- A fetch whose code has no place in its table or whose symbol is no row, which no built table does (R58). Safe. -/
  | noSuchSymbol
  deriving DecidableEq, Repr

/-- What the model does not execute. -/
inductive Refusal where
  /-- An instruction whose arm has no meaning yet. Safe. -/
  | notModelled (mnemonic : String)
  /-- A host access outside the interface, which R43 and R74 say a model refuses. Safe. -/
  | access (why : HostReject)
  deriving DecidableEq, Repr

/-- The outcome of a step. -/
abbrev Out := Host.Outcome State Fault Refusal

/-- The state after reset (R227) of a block with parameters `cfg`. What R227 leaves unspecified is a DESIGN CHOICE: no
window cell holds a value (log 5), the arrays and tables are 0 (log 6), and so are the model's own fields (log 1, log 7,
log 8). -/
def State.resetWith (cfg : Config) : State :=
  { cfg := cfg
    agenda := []
    rdata := 0
    top := .idle
    phase := .zhdr
    sub := 0
    eoiSeen := false
    inDrop := false
    heldIn := false
    heldOut := false
    ctl := { config := 0, outLimit := 0, allow := false, lim := 0 }
    err := { kind := 0, cause := 0, bits := 0, byte := 0 }
    inp := { fifo := [], buf := 0, cnt := 0, count := 0 }
    out := { fifo := [], count := 0, win := [], wp := 0, hist := 0, s1 := 1, s2 := 0 }
    zl := { cmf := 0, flg := 0, trailerVal := 0, trailerN := 0 }
    blk :=
      { bfinal := false, btype := 0, storedRem := 0, nlen := 0, ndist := 0, ncode := 0, lenIdx := 0, clSym := 0
        clLens := List.replicate 19 0, lens := List.replicate 320 0 }
    tabs := { cl := Table.blank, ll := Table.blank, d := Table.blank }
    hc := Hc.zero
    copy := { len := 0, dist := 0, pendLen := 0, lSym := 0, dSym := 0, litByte := 0 }
    crc := { reg := 0xFFFFFFFF, expect := 0, count := 0 } }

/-- The state after reset (R227), with the parameters of log 3 and log 4. -/
def State.reset : State := State.resetWith Config.standard

end Sys2Proof.Machine
end

