-- ==== Sys2Proof/Machine/Flags.lean ====
section
/-! DEFINITION. The codes of STATE, PHASE, KIND and CAUSE, and every flag the block computes: the fields of STATUS, the
interrupt line and the CRC match (R20, R21, R22, R26, R211, R213, R218, R219). -/

namespace Sys2Proof.Machine

/-- The code of STATE (R20). -/
def Top.code (t : Top) : Nat :=
  match t with
  | .idle => 0
  | .running => 1
  | .done => 2
  | .failed => 3

/-- The code of PHASE (R21). -/
def Phase.code (p : Phase) : Nat :=
  match p with
  | .zhdr => 0
  | .bhdr => 1
  | .storedHdr => 2
  | .storedCopy => 3
  | .dynHdr => 4
  | .dynCl => 5
  | .dynLens => 6
  | .dynBuild => 7
  | .sym => 8
  | .lextra => 9
  | .dist => 10
  | .dextra => 11
  | .copy => 12
  | .trailer => 13
  | .lit => 14

/-- The KIND code (R213). -/
def ErrKind.code (k : ErrKind) : Nat :=
  match k with
  | .format => 1
  | .structural => 2
  | .truncated => 3
  | .integrity => 4
  | .corrupt => 5
  | .unsupported => 6
  | .limit => 7
  | .hostProtocol => 8

/-- The CAUSE code (R213). -/
def ErrCause.code (c : ErrCause) : Nat :=
  match c with
  | .zlibFcheck => 1
  | .zlibCm => 2
  | .zlibCinfo => 3
  | .zlibFdict => 4
  | .btypeReserved => 5
  | .storedNlen => 6
  | .dynCounts => 7
  | .clOversub => 8
  | .clIncomplete => 9
  | .repNoPrev => 10
  | .repOverflow => 11
  | .noEob => 12
  | .llOversub => 13
  | .llIncomplete => 14
  | .dOversub => 15
  | .dIncomplete => 16
  | .invalidCode => 17
  | .badLLSym => 18
  | .badDSym => 19
  | .distTooFar => 20
  | .truncated => 21
  | .adlerMismatch => 22
  | .outLimit => 23
  | .countWrap => 24
  | .inOverrun => 25
  | .inAfterEoi => 26

/-- The kind of a cause: the one in its row of R213. -/
def ErrCause.kind (c : ErrCause) : ErrKind :=
  match c with
  | .zlibFcheck => .format
  | .zlibCm | .zlibCinfo | .zlibFdict => .unsupported
  | .btypeReserved | .storedNlen | .dynCounts | .clOversub | .clIncomplete | .repNoPrev | .repOverflow | .noEob
  | .llOversub | .llIncomplete | .dOversub | .dIncomplete | .invalidCode | .badLLSym | .badDSym | .distTooFar =>
    .corrupt
  | .truncated => .truncated
  | .adlerMismatch => .integrity
  | .outLimit | .countWrap => .limit
  | .inOverrun | .inAfterEoi => .hostProtocol

/-- CONFIG.IRQ_EN (R25). -/
def State.irqEn (s : State) : Bool := s.ctl.config.getLsbD 0

/-- CONFIG.ALLOW_RFC_DIST (R25). -/
def State.allowRfcDist (s : State) : Bool := s.ctl.config.getLsbD 1

/-- IN_FULL: IN_LEVEL = IN_FIFO_DEPTH (R26). -/
def State.inFull (s : State) : Bool := s.inp.fifo.length == s.cfg.inDepth

/-- OUT_EMPTY: OUT_LEVEL = 0 (R26). -/
def State.outEmpty (s : State) : Bool := s.out.fifo.length == 0

/-- No emit step is enabled: OUT_FIFO has no space (R218). -/
def State.outFull (s : State) : Bool := !decide (s.out.fifo.length < s.cfg.outDepth)

/-- The interrupt line (R219). -/
def State.irq (s : State) : Bool := s.irqEn && (s.top == .done || s.top == .failed)

/-- Where the interrupt line is driven (R219, IRQ_ROUTE): the host input and its priority while the line is 1. -/
def State.irqDrives (s : State) : Option (Nat × Nat) :=
  if s.irq then some (s.cfg.irqInput, s.cfg.irqPriority) else none

/-- CRC_VALUE: the finished CRC (R39, R210). -/
def State.crcValue (s : State) : Word := s.crc.reg ^^^ 0xFFFFFFFF

/-- MATCH, computed at each read (R22, R211), so 1 after reset, as R41 and R227 say. DEDUCED: the flag table of R22 gives
the reset value 0 and its own formula gives 1 (log 21). -/
def State.crcMatch (s : State) : Bool := s.crcValue == s.crc.expect

/-- STATUS (R26). -/
def State.status (s : State) : Word :=
  BitVec.ofNat 32
    (s.top.code + 2 ^ 2 * s.eoiSeen.toNat + 2 ^ 3 * s.inDrop.toNat + 2 ^ 4 * s.inFull.toNat
      + 2 ^ 5 * s.outEmpty.toNat + 2 ^ 6 * s.irq.toNat + 2 ^ 7 * s.heldIn.toNat + 2 ^ 8 * s.heldOut.toNat
      + 2 ^ 16 * s.phase.code)

end Sys2Proof.Machine
end

