-- ==== Sys2Proof/Machine/Operands.lean ====
section
/-! DEFINITION. What a host read of each register returns (R24 to R43, R108), and the bits INF's next step reads
(R46, R62). -/

namespace Sys2Proof.Machine

/-- ERR (R27). -/
def State.errWord (s : State) : Word :=
  BitVec.ofNat 32 (s.err.kind.toNat + 2 ^ 8 * s.err.cause.toNat + 2 ^ 16 * s.err.bits.toNat)

/-- ADLER (R32). -/
def State.adler (s : State) : Word := BitVec.ofNat 32 (2 ^ 16 * s.out.s2.toNat + s.out.s1.toNat)

/-- BLOCK (R33). -/
def State.blockWord (s : State) : Word := BitVec.ofNat 32 (s.blk.bfinal.toNat + 2 * s.blk.btype.toNat)

/-- LEVELS (R34). -/
def State.levels (s : State) : Word :=
  BitVec.ofNat 32 (s.inp.fifo.length % 2 ^ 16 + 2 ^ 16 * (s.out.fifo.length % 2 ^ 16))

/-- ZHDR (R35). -/
def State.zhdrWord (s : State) : Word := BitVec.ofNat 32 (s.zl.cmf.toNat + 2 ^ 8 * s.zl.flg.toNat)

/-- TRAILER: TRAILER_VAL once all four bytes are read, 0 before (R36, R47). -/
def State.trailerWord (s : State) : Word := if s.zl.trailerN = 4 then s.zl.trailerVal else 0

/-- The value a read of the register of word number k returns (R23, R108). Write-only, pulse and reserved registers
return 0 (R24, R30, R37, R38, R43). OUT_DATA is read by POP, which has a side effect (R31). -/
def State.readReg (s : State) (k : Nat) : Word :=
  match k with
  | 1 => s.ctl.config.setWidth 32
  | 2 => s.status
  | 3 => s.errWord
  | 4 => s.err.byte
  | 5 => s.inp.count
  | 6 => s.out.count
  | 7 => s.ctl.outLimit
  | 10 => s.adler
  | 11 => s.blockWord
  | 12 => s.levels
  | 13 => s.zhdrWord
  | 14 => s.trailerWord
  | 18 => s.crcValue
  | 19 => s.crc.expect
  | 20 => BitVec.ofNat 32 s.crcMatch.toNat
  | 21 => s.crc.count
  | _ => 0

/-- The next n bits of the stream, in stream order, from BITBUF (R46, R59). -/
def State.peek (s : State) (n : Nat) : List Bool := natBits n s.inp.buf.toNat

/-- BITPOS, the bit cursor (R19). -/
def State.bitpos (s : State) : Nat := 8 * s.inp.count.toNat - s.inp.cnt.toNat

end Sys2Proof.Machine
end

