-- ==== Sys2Proof/Machine/Ops.lean ====
section
/-! DEFINITION. The named operations the meanings share: the window memory (R66 to R68), the error entry (R214) and the
state clear that leaves it (R101, R215, R217), the bit reader (R61 to R64), the output path (R114, R136), the holds
(R218), the block end (R118) and the table builds (R122 to R124). -/

namespace Sys2Proof.Machine

/-! ## The window memory -/

/-- Read one cell; a cell no write has reached has no value (log 5). -/
def Memory.read : List Host.Cell → Nat → Option Byte
  | [], _ => none
  | (x, y) :: m, a => if a = x then some y else Memory.read m a

/-- Write one cell, keeping the cells strictly rising. -/
def Memory.write : List Host.Cell → Nat → Byte → List Host.Cell
  | [], a, b => [(a, b)]
  | (x, y) :: m, a, b =>
    if a < x then (a, b) :: (x, y) :: m
    else if a = x then (a, b) :: m
    else (x, y) :: Memory.write m a b

/-- Cells strictly rising, from cell number `lo` on, and below WSIZE. -/
def Memory.wfFrom : Nat → List Host.Cell → Bool
  | _, [] => true
  | lo, (x, _) :: m => decide (lo ≤ x) && decide (x < Config.wsize) && Memory.wfFrom (x + 1) m

/-- The canonical form of the window: cells strictly rising and below WSIZE (R66). -/
def Memory.wf (m : List Host.Cell) : Bool := Memory.wfFrom 0 m

/-- The cell of the d-th most recently emitted byte (R68). -/
def winCell (wp : BitVec 15) (d : Nat) : Nat := (wp.toNat + Config.wsize - d) % Config.wsize

/-- WinWrite (R67). -/
def Output.winWrite (o : Output) (b : Byte) : Output :=
  { o with
    win := Memory.write o.win o.wp.toNat b
    wp := o.wp + 1
    hist := BitVec.ofNat 16 (min (o.hist.toNat + 1) Config.wsize) }

/-- WinRead (R68): a distance of 0 or above HIST_VALID, or a cell with no value, is a fault of the model. -/
def winRead (o : Output) (d : Nat) : Except Fault Byte :=
  if d = 0 ∨ o.hist.toNat < d then .error (.winReadOutOfRange d)
  else
    match Memory.read o.win (winCell o.wp d) with
    | some b => .ok b
    | none => .error (.winUnwritten (winCell o.wp d))

/-! ## The error entry and the stream clear -/

/-- Fail (R214): record the error and enter FAILED; PHASE and everything else stay. -/
def State.fail (s : State) (c : ErrCause) : State :=
  { s with
    err :=
      { kind := BitVec.ofNat 4 c.kind.code, cause := BitVec.ofNat 8 c.code, bits := s.inp.cnt, byte := s.inp.count }
    top := .failed }

/-- ClearStream (R101). No error is returned from (R217): START and ABORT, which begin with this, leave FAILED. -/
def State.clearStream (s : State) : State :=
  { s with
    inp := { fifo := [], buf := 0, cnt := 0, count := 0 }
    out := { s.out with fifo := [], count := 0, wp := 0, hist := 0, s1 := 1, s2 := 0 }
    zl := { cmf := 0, flg := 0, trailerVal := 0, trailerN := 0 }
    blk :=
      { s.blk with
        bfinal := false, btype := 0, storedRem := 0, nlen := 0, ndist := 0, ncode := 0, lenIdx := 0, clSym := 0 }
    hc := Hc.zero
    copy := { len := 0, dist := 0, pendLen := 0, lSym := 0, dSym := 0, litByte := 0 }
    err := { kind := 0, cause := 0, bits := 0, byte := 0 }
    eoiSeen := false
    inDrop := false
    heldIn := false
    heldOut := false
    phase := .zhdr
    sub := 0 }

/-! ## Phases and holds -/

/-- Enter a phase at its first step (R21; log 7). -/
def State.goto (s : State) (p : Phase) : State := { s with phase := p, sub := 0 }

/-- INF's step clears both hold flags (R22, R218). -/
def State.unhold (s : State) : State := { s with heldIn := false, heldOut := false }

/-- One step of INF: only while RUNNING (R17, R226; log 11). -/
def State.inf (s : State) (k : State → Out) : Out :=
  match s.top with
  | .running => k s.unhold
  | .idle => .next s
  | .done => .next s
  | .failed => .next s

/-- One step of INF that emits: while OUT_FIFO has no space, Hold(OUT) instead (R218). -/
def State.infEmit (s : State) (k : State → Out) : Out :=
  match s.top with
  | .running => if s.outFull then .next { s with heldOut := true } else k s.unhold
  | .idle => .next s
  | .done => .next s
  | .failed => .next s

/-! ## The bit reader -/

/-- Consume n bits: the BITBUF and BITCNT part of GetBits(n) (R62; log 16). -/
def State.dropBits (s : State) (n : Nat) : State :=
  { s with inp := { s.inp with buf := s.inp.buf >>> n, cnt := BitVec.ofNat 5 (s.inp.cnt.toNat - n) } }

/-- AlignToByte (R63). -/
def State.alignToByte (s : State) : State := s.dropBits (s.inp.cnt.toNat % 8)

/-- Take byte b, the oldest of IN_FIFO, into the bit reader (R61). -/
def State.takeByte (s : State) (b : Byte) (rest : List Byte) : State :=
  { s with
    inp :=
      { fifo := rest
        buf := s.inp.buf ||| (b.setWidth 24 <<< s.inp.cnt.toNat)
        cnt := s.inp.cnt + 8
        count := s.inp.count + 1 } }

/-- One fill step, or Hold(IN) (R61, R218). -/
def State.fill (s : State) : State :=
  match s.inp.fifo with
  | b :: rest =>
    if s.inp.count = 0xFFFFFFFF then s.unhold.fail .countWrap else s.unhold.takeByte b rest
  | [] => if s.eoiSeen then s.unhold.fail .truncated else { s with heldIn := true }

/-- The last bit of a code is consumed and the HC registers are cleared (R125). -/
def State.endCode (s : State) : State := { s.dropBits 1 with hc := Hc.zero }

/-- A code bit that ends no code (R125). -/
def State.codeMore (s : State) (h : Hc) : State := { s.unhold.dropBits 1 with hc := h }

/-- A decode step that fails, having consumed n bits (R125, R214). -/
def State.codeInvalid (s : State) (n : Nat) (h : Hc) : State :=
  State.fail { s.unhold.dropBits n with hc := h } .invalidCode

/-! ## The output path -/

/-- The Adler-32 update (R114); the second sum uses the new first one. -/
def Output.adlerUpdate (o : Output) (b : Byte) : Output :=
  let s1 := (o.s1.toNat + b.toNat) % Config.adlerMod
  { o with s1 := BitVec.ofNat 16 s1, s2 := BitVec.ofNat 16 ((o.s2.toNat + s1) % Config.adlerMod) }

/-- What an emit that raises nothing does to the output side (R136). -/
def Output.emitted (o : Output) (b : Byte) : Output :=
  let o1 := o.winWrite b
  let o2 := Output.adlerUpdate { o1 with count := o1.count + 1 } b
  { o2 with fifo := o2.fifo ++ [b] }

/-- Emit(b) and then `k` (R136); where the emit fails, nothing is written and `k` does not happen (R214). -/
def State.emit (s : State) (b : Byte) (k : State → State) : State :=
  if s.ctl.lim ≠ 0 ∧ s.ctl.lim.toNat ≤ s.out.count.toNat then s.fail .outLimit
  else if s.out.count = 0xFFFFFFFF then s.fail .countWrap
  else k { s with out := s.out.emitted b }

/-! ## Blocks and tables -/

/-- BlockEnd (R118). -/
def State.blockEnd (s : State) : State :=
  if s.blk.bfinal then s.alignToByte.goto .trailer else s.goto .bhdr

/-- DistException (R124): the accepted table, with its flag, where the incomplete distance set is one of the two
shapes and ALLOW = 1. -/
def distException (allow : Bool) (t : Table) : Option Table :=
  if allow && t.syms.length == 0 then some { t with empty := true }
  else if allow && t.syms.length == 1 && t.countOf 1 == 1 then some { t with single := true }
  else none

/-- Validate for CL_T and LL_T (R123), then `k`. -/
def State.validate (s : State) (t : Table) (oversub incomplete : ErrCause) (k : State → State) : State :=
  match t.left with
  | none => s.fail oversub
  | some 0 => k s
  | some (_ + 1) => s.fail incomplete

/-- Build and validate CL_T (R122, R123, R129). -/
def State.buildCL (s : State) (k : State → State) : State :=
  let t := buildTable (s.blk.clLens.map fun x => x.setWidth 4)
  State.validate { s with tabs := { s.tabs with cl := t } } t .clOversub .clIncomplete k

/-- Build and validate LL_T (R122, R123, R135). -/
def State.buildLL (s : State) (k : State → State) : State :=
  let t := buildTable (s.blk.lens.take s.blk.nlen.toNat)
  State.validate { s with tabs := { s.tabs with ll := t } } t .llOversub .llIncomplete k

/-- Build and validate D_T, with the exceptions of R124 (R122, R123, R135). -/
def State.buildD (s : State) (k : State → State) : State :=
  let t := buildTable ((s.blk.lens.drop s.blk.nlen.toNat).take s.blk.ndist.toNat)
  let s1 : State := { s with tabs := { s.tabs with d := t } }
  match t.left with
  | none => s1.fail .dOversub
  | some 0 => k s1
  | some (_ + 1) =>
    match distException s.ctl.allow t with
    | some t' => k { s1 with tabs := { s1.tabs with d := t' } }
    | none => s1.fail .dIncomplete

/-- LENS[i .. i + n - 1] <- v (R131 to R134). -/
def setLens : List (BitVec 4) → Nat → Nat → BitVec 4 → List (BitVec 4)
  | ls, _, 0, _ => ls
  | ls, i, n + 1, v => setLens (ls.set i v) (i + 1) n v

/-- Write n code lengths v at LEN_IDX; DYN_BUILD follows the last one (R130, R131). -/
def State.putLens (s : State) (n : Nat) (v : BitVec 4) : State :=
  let i := s.blk.lenIdx.toNat
  let s1 : State :=
    { s with blk := { s.blk with lens := setLens s.blk.lens i n v, lenIdx := BitVec.ofNat 9 (i + n) } }
  if s.blk.nlen.toNat + s.blk.ndist.toNat ≤ i + n then s1.goto .dynBuild else s1

/-- A repeat of n lengths v, which ends CL_SYM's wait; REP_OVERFLOW where it would pass the last length (R132 to
R134). -/
def State.repeatLens (s : State) (n : Nat) (v : BitVec 4) : State :=
  if s.blk.nlen.toNat + s.blk.ndist.toNat < s.blk.lenIdx.toNat + n then s.fail .repOverflow
  else State.putLens { s with blk := { s.blk with clSym := 0 } } n v

end Sys2Proof.Machine
end

