-- ==== Sys2Proof/Machine/Blocks.lean ====
section
/-! DEFINITION. The meanings of the block header and stored block rows (42_block_header_stored.md): BLOCK_STORED,
BLOCK_FIXED, BLOCK_DYNAMIC, BLOCK_RESERVED, STORED_HDR, STORED_BYTE. -/

namespace Sys2Proof.Machine

/-- The part of R117 that every block type shares: the three bits are read and BFINAL and BTYPE written. -/
def State.header (s : State) (bfinal : Bool) (btype : BitVec 2) : State :=
  { s.dropBits 3 with blk := { s.blk with bfinal := bfinal, btype := btype } }

/-- BLOCK_STORED (R117, BTYPE = 0): the alignment is made in this step. -/
def execBlockStored (bfinal : Bool) (s : State) : Out :=
  s.inf fun s => .next ((s.header bfinal 0).alignToByte.goto .storedHdr)

/-- BLOCK_FIXED (R117, BTYPE = 1): the fixed tables are loaded (R127). -/
def execBlockFixed (bfinal : Bool) (s : State) : Out :=
  s.inf fun s =>
    .next (State.goto { s.header bfinal 1 with tabs := { s.tabs with ll := fixedLL, d := fixedD } } .sym)

/-- BLOCK_DYNAMIC (R117, BTYPE = 2). -/
def execBlockDynamic (bfinal : Bool) (s : State) : Out :=
  s.inf fun s => .next ((s.header bfinal 2).goto .dynHdr)

/-- BLOCK_RESERVED (R117, BTYPE = 3): BTYPE_RESERVED, with BLOCK showing the rejected header. -/
def execBlockReserved (bfinal : Bool) (s : State) : Out :=
  s.inf fun s => .next ((s.header bfinal 3).fail .btypeReserved)

/-- STORED_HDR: step 1 (LEN) and step 2 (NLEN) of R119. -/
def execStoredHdr (f : StoredField) (s : State) : Out :=
  s.inf fun s =>
    match f with
    | .len v => .next { s.dropBits 16 with blk := { s.blk with storedRem := v }, sub := 1 }
    | .nlen n =>
      .next
        (if n ≠ ~~~s.blk.storedRem then (s.dropBits 16).fail .storedNlen
        else if s.blk.storedRem = 0 then (s.dropBits 16).blockEnd
        else (s.dropBits 16).goto .storedCopy)

/-- STORED_BYTE: copy one byte (R120). -/
def execStoredByte (b : Byte) (s : State) : Out :=
  s.infEmit fun s =>
    .next
      ((s.dropBits 8).emit b fun s =>
        let n := s.blk.storedRem.toNat - 1
        let s1 : State := { s with blk := { s.blk with storedRem := BitVec.ofNat 16 n } }
        if n = 0 then s1.blockEnd else s1)

end Sys2Proof.Machine
end

