-- ==== Sys2Proof/Machine/CrcUnit.lean ====
section
/-! DEFINITION. The meanings of the CRC unit's rows (46_crc32.md): CRC_INIT, CRC_BYTE, RD_CRC_VALUE, RD_CRC_STATUS. -/

namespace Sys2Proof.Machine

/-- One of the eight rounds of R209. -/
def crcRound (c : Word) : Word := if c.getLsbD 0 then (c >>> 1) ^^^ 0xEDB88320 else c >>> 1

/-- n rounds. -/
def crcRounds : Nat → Word → Word
  | 0, c => c
  | n + 1, c => crcRounds n (crcRound c)

/-- The CRC register after one byte (R209). -/
def crcUpdate (c : Word) (b : Byte) : Word := crcRounds 8 (c ^^^ b.setWidth 32)

/-- CRC_INIT (R208). -/
def execCrcInit (s : State) : Out :=
  .next { s with crc := { s.crc with reg := 0xFFFFFFFF, count := 0 } }

/-- CRC_BYTE (R209): CRC_COUNT saturates. -/
def execCrcByte (b : Byte) (s : State) : Out :=
  .next
    { s with
      crc :=
        { s.crc with
          reg := crcUpdate s.crc.reg b
          count := if s.crc.count = 0xFFFFFFFF then s.crc.count else s.crc.count + 1 } }

/-- RD_CRC_VALUE (R210). -/
def execRdCrcValue (s : State) : Out :=
  .next { s with rdata := s.crcValue }

/-- RD_CRC_STATUS (R211). -/
def execRdCrcStatus (s : State) : Out :=
  .next { s with rdata := BitVec.ofNat 32 s.crcMatch.toNat }

end Sys2Proof.Machine
end

