-- ==== Sys2Proof/Machine/Distances.lean ====
section
/-! DEFINITION. The meanings of the distance rows and of the copy engine (45_symbols_copy.md sections 3, 4 and 7):
DIST_0..DIST_29, D_RESERVED, MATCH. -/

namespace Sys2Proof.Machine

/-- The check and the writes of R142, once the distance is formed. -/
def startCopy (s : State) (dist : Nat) : State :=
  if s.out.hist.toNat < dist then s.fail .distTooFar
  else
    State.goto
      { s with
        copy := { s.copy with dist := BitVec.ofNat 16 dist, len := s.copy.pendLen, pendLen := 0, dSym := 0 } } .copy

/-- A distance symbol (R141, R142): the step of its code latches D_SYM; the step of its extra bits forms and checks the
distance. -/
def distSymbol {k : Nat} (sym : BitVec 5) (base : Nat) (f : SymStep k) (s : State) : Out :=
  s.inf fun s =>
    match f with
    | .code => .next (State.goto { s.endCode with copy := { s.copy with dSym := sym } } .dextra)
    | .extra e => .next (startCopy (s.dropBits k) (base + e.toNat))

/-- MATCH (R143): copy one byte; the window is read before the emit writes it. -/
def execMatchCopy (len : BitVec 9) (dist : BitVec 16) (s : State) : Out :=
  s.infEmit fun s =>
    match winRead s.out dist.toNat with
    | .error e => .fault e
    | .ok b =>
      .next
        (s.emit b fun s =>
          let n := len.toNat - 1
          let s1 : State := { s with copy := { s.copy with len := BitVec.ofNat 9 n } }
          if n = 0 then s1.goto .sym else s1)

/-- DIST_0 (R176). -/
def execDist0 (f : SymStep 0) (s : State) : Out := distSymbol 0 1 f s

/-- DIST_1 (R177). -/
def execDist1 (f : SymStep 0) (s : State) : Out := distSymbol 1 2 f s

/-- DIST_2 (R178). -/
def execDist2 (f : SymStep 0) (s : State) : Out := distSymbol 2 3 f s

/-- DIST_3 (R179). -/
def execDist3 (f : SymStep 0) (s : State) : Out := distSymbol 3 4 f s

/-- DIST_4 (R180). -/
def execDist4 (f : SymStep 1) (s : State) : Out := distSymbol 4 5 f s

/-- DIST_5 (R181). -/
def execDist5 (f : SymStep 1) (s : State) : Out := distSymbol 5 7 f s

/-- DIST_6 (R182). -/
def execDist6 (f : SymStep 2) (s : State) : Out := distSymbol 6 9 f s

/-- DIST_7 (R183). -/
def execDist7 (f : SymStep 2) (s : State) : Out := distSymbol 7 13 f s

/-- DIST_8 (R184). -/
def execDist8 (f : SymStep 3) (s : State) : Out := distSymbol 8 17 f s

/-- DIST_9 (R185). -/
def execDist9 (f : SymStep 3) (s : State) : Out := distSymbol 9 25 f s

/-- DIST_10 (R186). -/
def execDist10 (f : SymStep 4) (s : State) : Out := distSymbol 10 33 f s

/-- DIST_11 (R187). -/
def execDist11 (f : SymStep 4) (s : State) : Out := distSymbol 11 49 f s

/-- DIST_12 (R188). -/
def execDist12 (f : SymStep 5) (s : State) : Out := distSymbol 12 65 f s

/-- DIST_13 (R189). -/
def execDist13 (f : SymStep 5) (s : State) : Out := distSymbol 13 97 f s

/-- DIST_14 (R190). -/
def execDist14 (f : SymStep 6) (s : State) : Out := distSymbol 14 129 f s

/-- DIST_15 (R191). -/
def execDist15 (f : SymStep 6) (s : State) : Out := distSymbol 15 193 f s

/-- DIST_16 (R192). -/
def execDist16 (f : SymStep 7) (s : State) : Out := distSymbol 16 257 f s

/-- DIST_17 (R193). -/
def execDist17 (f : SymStep 7) (s : State) : Out := distSymbol 17 385 f s

/-- DIST_18 (R194). -/
def execDist18 (f : SymStep 8) (s : State) : Out := distSymbol 18 513 f s

/-- DIST_19 (R195). -/
def execDist19 (f : SymStep 8) (s : State) : Out := distSymbol 19 769 f s

/-- DIST_20 (R196). -/
def execDist20 (f : SymStep 9) (s : State) : Out := distSymbol 20 1025 f s

/-- DIST_21 (R197). -/
def execDist21 (f : SymStep 9) (s : State) : Out := distSymbol 21 1537 f s

/-- DIST_22 (R198). -/
def execDist22 (f : SymStep 10) (s : State) : Out := distSymbol 22 2049 f s

/-- DIST_23 (R199). -/
def execDist23 (f : SymStep 10) (s : State) : Out := distSymbol 23 3073 f s

/-- DIST_24 (R200). -/
def execDist24 (f : SymStep 11) (s : State) : Out := distSymbol 24 4097 f s

/-- DIST_25 (R201). -/
def execDist25 (f : SymStep 11) (s : State) : Out := distSymbol 25 6145 f s

/-- DIST_26 (R202). -/
def execDist26 (f : SymStep 12) (s : State) : Out := distSymbol 26 8193 f s

/-- DIST_27 (R203). -/
def execDist27 (f : SymStep 12) (s : State) : Out := distSymbol 27 12289 f s

/-- DIST_28 (R204). -/
def execDist28 (f : SymStep 13) (s : State) : Out := distSymbol 28 16385 f s

/-- DIST_29 (R205). -/
def execDist29 (f : SymStep 13) (s : State) : Out := distSymbol 29 24577 f s

/-- D_RESERVED, symbols 30 and 31 (R207). -/
def execDReserved (_x : BitVec 1) (s : State) : Out :=
  s.inf fun s => .next (s.endCode.fail .badDSym)

end Sys2Proof.Machine
end

