-- ==== Sys2Proof/Machine/Dynamic.lean ====
section
/-! DEFINITION. The meanings of the dynamic header rows (44_dynamic_header.md): DYN_HDR, DYN_CLEN, CL_LEN, CL_REP16,
CL_ZERO17, CL_ZERO18, DYN_BUILD. -/

namespace Sys2Proof.Machine

/-- The check and the writes of step 3 of R128, once NCODE is read. -/
def dynCounts (s : State) : State :=
  if 286 < s.blk.nlen.toNat ∨ 30 < s.blk.ndist.toNat then s.fail .dynCounts
  else State.goto { s with blk := { s.blk with clLens := List.replicate Config.clSyms 0, lenIdx := 0 } } .dynCl

/-- DYN_HDR: steps 1 to 3 of R128 (HLIT, HDIST, HCLEN). -/
def execDynHdr (f : DynField) (s : State) : Out :=
  s.inf fun s =>
    match f with
    | .hlit v => .next { s.dropBits 5 with blk := { s.blk with nlen := BitVec.ofNat 9 (v.toNat + 257) }, sub := 1 }
    | .hdist v => .next { s.dropBits 5 with blk := { s.blk with ndist := BitVec.ofNat 6 (v.toNat + 1) }, sub := 2 }
    | .hclen v => .next (dynCounts { s.dropBits 4 with blk := { s.blk with ncode := BitVec.ofNat 5 (v.toNat + 4) } })

/-- DYN_CLEN: one 3-bit length, or the build step of R129. -/
def execDynClen (f : ClenStep) (s : State) : Out :=
  s.inf fun s =>
    match f with
    | .field v =>
      .next
        { s.dropBits 3 with
          blk :=
            { s.blk with
              clLens := s.blk.clLens.set (clOrder.getD s.blk.lenIdx.toNat Config.clSyms) v
              lenIdx := s.blk.lenIdx + 1 } }
    | .build => .next (s.buildCL fun s => State.goto { s with blk := { s.blk with lenIdx := 0 } } .dynLens)

/-- CL_LEN: a code length of value l, in the step that ends its code (R130, R131). -/
def execClLen (l : BitVec 4) (s : State) : Out :=
  s.inf fun s => .next (s.endCode.putLens 1 l)

/-- A repeat symbol is decoded; its extra bits are still to come (R130). -/
def State.awaitRepeat (s : State) (sym : BitVec 5) : State :=
  { s.endCode with blk := { s.blk with clSym := sym } }

/-- CL_REP16 (R130, R132): REP_NO_PREV in the step of its code, the repeat in the step of its extra bits. -/
def execClRep16 (f : SymStep 2) (s : State) : Out :=
  s.inf fun s =>
    match f with
    | .code => .next (if s.blk.lenIdx = 0 then s.endCode.fail .repNoPrev else s.awaitRepeat 16)
    | .extra e => .next ((s.dropBits 2).repeatLens (3 + e.toNat) (s.blk.lens.getD (s.blk.lenIdx.toNat - 1) 0))

/-- CL_ZERO17 (R130, R133). -/
def execClZero17 (f : SymStep 3) (s : State) : Out :=
  s.inf fun s =>
    match f with
    | .code => .next (s.awaitRepeat 17)
    | .extra e => .next ((s.dropBits 3).repeatLens (3 + e.toNat) 0)

/-- CL_ZERO18 (R130, R134). -/
def execClZero18 (f : SymStep 7) (s : State) : Out :=
  s.inf fun s =>
    match f with
    | .code => .next (s.awaitRepeat 18)
    | .extra e => .next ((s.dropBits 7).repeatLens (11 + e.toNat) 0)

/-- DYN_BUILD (R135): NO_EOB, then LL_T, then D_T. -/
def execDynBuild (s : State) : Out :=
  s.inf fun s =>
    .next
      (if s.blk.lens.getD 256 0 = 0 then s.fail .noEob
      else s.buildLL fun s => s.buildD fun s => s.goto .sym)

end Sys2Proof.Machine
end

