-- ==== Sys2Proof/Machine/HostCmd.lean ====
section
/-! DEFINITION. The meanings of the host command rows (40_host_commands.md): START, EOI, ABORT, PUSH, POP, WR_CONFIG,
WR_OUT_LIMIT, WR_CRC_EXPECT, RD_REG. What a read returns goes to `rdata` (log 8). -/

namespace Sys2Proof.Machine

/-- START (R102). -/
def execStart (s : State) : Out :=
  .next
    { s.clearStream with
      ctl := { s.ctl with allow := s.allowRfcDist, lim := s.ctl.outLimit }
      top := .running }

/-- EOI (R103). -/
def execEoi (s : State) : Out :=
  match s.top with
  | .running => .next { s with eoiSeen := true }
  | .idle => .next s
  | .done => .next s
  | .failed => .next s

/-- ABORT (R104). -/
def execAbort (s : State) : Out :=
  .next { s.clearStream with top := .idle }

/-- A push while RUNNING (R105). -/
def pushRunning (b : Byte) (s : State) : State :=
  if s.eoiSeen then s.fail .inAfterEoi
  else if s.inFull then s.fail .inOverrun
  else { s with inp := { s.inp with fifo := s.inp.fifo ++ [b] } }

/-- PUSH (R105): a byte pushed while not RUNNING is dropped. -/
def execPush (b : Byte) (s : State) : Out :=
  match s.top with
  | .running => .next (pushRunning b s)
  | .idle => .next { s with inDrop := true }
  | .done => .next { s with inDrop := true }
  | .failed => .next { s with inDrop := true }

/-- POP (R106): 0x100 and the oldest byte, or 0 where there is none. -/
def execPop (s : State) : Out :=
  match s.out.fifo with
  | b :: rest => .next { s with out := { s.out with fifo := rest }, rdata := 0x100 ||| b.setWidth 32 }
  | [] => .next { s with rdata := 0 }

/-- WR_CONFIG (R107): CONFIG <- v & 0x3. -/
def execWrConfig (v : Word) (s : State) : Out :=
  .next { s with ctl := { s.ctl with config := v.setWidth 2 } }

/-- WR_OUT_LIMIT (R107). -/
def execWrOutLimit (v : Word) (s : State) : Out :=
  .next { s with ctl := { s.ctl with outLimit := v } }

/-- WR_CRC_EXPECT (R107). -/
def execWrCrcExpect (v : Word) (s : State) : Out :=
  .next { s with crc := { s.crc with expect := v } }

/-- RD_REG (R108). -/
def execRdReg (k : BitVec 5) (s : State) : Out :=
  .next { s with rdata := s.readReg k.toNat }

end Sys2Proof.Machine
end

