-- ==== Sys2Proof/Machine/Symbols.lean ====
section
/-! DEFINITION. The meanings of the literal/length rows (45_symbols_copy.md sections 2 and 6): LIT, EOB,
LEN_257..LEN_285, LL_RESERVED. -/

namespace Sys2Proof.Machine

/-- A length symbol (R137, R140): the step of its code latches L_SYM; the step of its extra bits forms the length. -/
def lenSymbol {k : Nat} (sym : BitVec 9) (base : Nat) (f : SymStep k) (s : State) : Out :=
  s.inf fun s =>
    match f with
    | .code => .next (State.goto { s.endCode with copy := { s.copy with lSym := sym } } .lextra)
    | .extra e =>
      .next
        (State.goto
          { s.dropBits k with copy := { s.copy with pendLen := BitVec.ofNat 9 (base + e.toNat), lSym := 0 } } .dist)

/-- LIT (R137, R138): the step of its code latches LIT_BYTE; the emit step follows. -/
def execLit (f : LitStep) (s : State) : Out :=
  match f with
  | .code b => s.inf fun s => .next (State.goto { s.endCode with copy := { s.copy with litByte := b } } .lit)
  | .emit =>
    s.infEmit fun s =>
      .next (s.emit s.copy.litByte fun s => State.goto { s with copy := { s.copy with litByte := 0 } } .sym)

/-- EOB (R139): the block ends in the step that decodes it. -/
def execEob (s : State) : Out :=
  s.inf fun s => .next s.endCode.blockEnd

/-- LEN_257 (R147). -/
def execLen257 (f : SymStep 0) (s : State) : Out := lenSymbol 257 3 f s

/-- LEN_258 (R148). -/
def execLen258 (f : SymStep 0) (s : State) : Out := lenSymbol 258 4 f s

/-- LEN_259 (R149). -/
def execLen259 (f : SymStep 0) (s : State) : Out := lenSymbol 259 5 f s

/-- LEN_260 (R150). -/
def execLen260 (f : SymStep 0) (s : State) : Out := lenSymbol 260 6 f s

/-- LEN_261 (R151). -/
def execLen261 (f : SymStep 0) (s : State) : Out := lenSymbol 261 7 f s

/-- LEN_262 (R152). -/
def execLen262 (f : SymStep 0) (s : State) : Out := lenSymbol 262 8 f s

/-- LEN_263 (R153). -/
def execLen263 (f : SymStep 0) (s : State) : Out := lenSymbol 263 9 f s

/-- LEN_264 (R154). -/
def execLen264 (f : SymStep 0) (s : State) : Out := lenSymbol 264 10 f s

/-- LEN_265 (R155). -/
def execLen265 (f : SymStep 1) (s : State) : Out := lenSymbol 265 11 f s

/-- LEN_266 (R156). -/
def execLen266 (f : SymStep 1) (s : State) : Out := lenSymbol 266 13 f s

/-- LEN_267 (R157). -/
def execLen267 (f : SymStep 1) (s : State) : Out := lenSymbol 267 15 f s

/-- LEN_268 (R158). -/
def execLen268 (f : SymStep 1) (s : State) : Out := lenSymbol 268 17 f s

/-- LEN_269 (R159). -/
def execLen269 (f : SymStep 2) (s : State) : Out := lenSymbol 269 19 f s

/-- LEN_270 (R160). -/
def execLen270 (f : SymStep 2) (s : State) : Out := lenSymbol 270 23 f s

/-- LEN_271 (R161). -/
def execLen271 (f : SymStep 2) (s : State) : Out := lenSymbol 271 27 f s

/-- LEN_272 (R162). -/
def execLen272 (f : SymStep 2) (s : State) : Out := lenSymbol 272 31 f s

/-- LEN_273 (R163). -/
def execLen273 (f : SymStep 3) (s : State) : Out := lenSymbol 273 35 f s

/-- LEN_274 (R164). -/
def execLen274 (f : SymStep 3) (s : State) : Out := lenSymbol 274 43 f s

/-- LEN_275 (R165). -/
def execLen275 (f : SymStep 3) (s : State) : Out := lenSymbol 275 51 f s

/-- LEN_276 (R166). -/
def execLen276 (f : SymStep 3) (s : State) : Out := lenSymbol 276 59 f s

/-- LEN_277 (R167). -/
def execLen277 (f : SymStep 4) (s : State) : Out := lenSymbol 277 67 f s

/-- LEN_278 (R168). -/
def execLen278 (f : SymStep 4) (s : State) : Out := lenSymbol 278 83 f s

/-- LEN_279 (R169). -/
def execLen279 (f : SymStep 4) (s : State) : Out := lenSymbol 279 99 f s

/-- LEN_280 (R170). -/
def execLen280 (f : SymStep 4) (s : State) : Out := lenSymbol 280 115 f s

/-- LEN_281 (R171). -/
def execLen281 (f : SymStep 5) (s : State) : Out := lenSymbol 281 131 f s

/-- LEN_282 (R172). -/
def execLen282 (f : SymStep 5) (s : State) : Out := lenSymbol 282 163 f s

/-- LEN_283 (R173). -/
def execLen283 (f : SymStep 5) (s : State) : Out := lenSymbol 283 195 f s

/-- LEN_284 (R174). -/
def execLen284 (f : SymStep 5) (s : State) : Out := lenSymbol 284 227 f s

/-- LEN_285 (R175). -/
def execLen285 (f : SymStep 0) (s : State) : Out := lenSymbol 285 258 f s

/-- LL_RESERVED, symbols 286 and 287 (R206). -/
def execLLReserved (_x : BitVec 1) (s : State) : Out :=
  s.inf fun s => .next (s.endCode.fail .badLLSym)

end Sys2Proof.Machine
end

