-- ==== Sys2Proof/Machine/Zlib.lean ====
section
/-! DEFINITION. The meanings of the zlib framing rows (41_zlib_framing.md): ZHDR_CMF, ZHDR_FLG, TRAILER. -/

namespace Sys2Proof.Machine

/-- ZlibChecks (R112), and then `k`: the first failing check raises. -/
def zlibChecks (s : State) (k : State → State) : State :=
  if (s.zl.cmf.toNat * 256 + s.zl.flg.toNat) % 31 ≠ 0 then s.fail .zlibFcheck
  else if s.zl.cmf.toNat % 16 ≠ 8 then s.fail .zlibCm
  else if 7 < s.zl.cmf.toNat / 16 then s.fail .zlibCinfo
  else if s.zl.flg.getLsbD 5 then s.fail .zlibFdict
  else k s

/-- ZHDR_CMF: step 1 of R111. -/
def execZhdrCmf (cmf : Byte) (s : State) : Out :=
  s.inf fun s => .next { s.dropBits 8 with zl := { s.zl with cmf := cmf }, sub := 1 }

/-- ZHDR_FLG: step 2 of R111, with the checks of R112. -/
def execZhdrFlg (flg : Byte) (s : State) : Out :=
  s.inf fun s => .next (zlibChecks { s.dropBits 8 with zl := { s.zl with flg := flg } } fun s => s.goto .bhdr)

/-- The compare in the step of the fourth trailer byte (R116). -/
def trailerCheck (s : State) : State :=
  if s.zl.trailerVal ≠ s.adler then s.fail .adlerMismatch else { s with top := .done }

/-- TRAILER: one of the four bytes of R116, most significant byte first. -/
def execTrailer (b : Byte) (s : State) : Out :=
  s.inf fun s =>
    let s1 : State :=
      { s.dropBits 8 with
        zl :=
          { s.zl with
            trailerVal := (s.zl.trailerVal <<< 8) ||| b.setWidth 32
            trailerN := s.zl.trailerN + 1 } }
    .next (if s1.zl.trailerN = 4 then trailerCheck s1 else s1)

end Sys2Proof.Machine
end

