-- ==== Sys2Proof/Machine/Dispatch.lean ====
section
/-! DEFINITION. The meaning of each instruction, one arm a row of the opcode table. -/

namespace Sys2Proof.Machine

def exec (i : Instr) (s : State) : Host.Outcome State Fault Refusal :=
  match i with
  | .zhdrCmf cmf => Sys2Proof.Machine.execZhdrCmf cmf s
  | .zhdrFlg flg => Sys2Proof.Machine.execZhdrFlg flg s
  | .blockStored bfinal => Sys2Proof.Machine.execBlockStored bfinal s
  | .blockFixed bfinal => Sys2Proof.Machine.execBlockFixed bfinal s
  | .blockDynamic bfinal => Sys2Proof.Machine.execBlockDynamic bfinal s
  | .blockReserved bfinal => Sys2Proof.Machine.execBlockReserved bfinal s
  | .storedHdr f => Sys2Proof.Machine.execStoredHdr f s
  | .storedByte b => Sys2Proof.Machine.execStoredByte b s
  | .dynHdr f => Sys2Proof.Machine.execDynHdr f s
  | .dynClen f => Sys2Proof.Machine.execDynClen f s
  | .clLen l => Sys2Proof.Machine.execClLen l s
  | .clRep16 f => Sys2Proof.Machine.execClRep16 f s
  | .clZero17 f => Sys2Proof.Machine.execClZero17 f s
  | .clZero18 f => Sys2Proof.Machine.execClZero18 f s
  | .dynBuild => Sys2Proof.Machine.execDynBuild s
  | .lit f => Sys2Proof.Machine.execLit f s
  | .eob => Sys2Proof.Machine.execEob s
  | .len257 f => Sys2Proof.Machine.execLen257 f s
  | .len258 f => Sys2Proof.Machine.execLen258 f s
  | .len259 f => Sys2Proof.Machine.execLen259 f s
  | .len260 f => Sys2Proof.Machine.execLen260 f s
  | .len261 f => Sys2Proof.Machine.execLen261 f s
  | .len262 f => Sys2Proof.Machine.execLen262 f s
  | .len263 f => Sys2Proof.Machine.execLen263 f s
  | .len264 f => Sys2Proof.Machine.execLen264 f s
  | .len265 f => Sys2Proof.Machine.execLen265 f s
  | .len266 f => Sys2Proof.Machine.execLen266 f s
  | .len267 f => Sys2Proof.Machine.execLen267 f s
  | .len268 f => Sys2Proof.Machine.execLen268 f s
  | .len269 f => Sys2Proof.Machine.execLen269 f s
  | .len270 f => Sys2Proof.Machine.execLen270 f s
  | .len271 f => Sys2Proof.Machine.execLen271 f s
  | .len272 f => Sys2Proof.Machine.execLen272 f s
  | .len273 f => Sys2Proof.Machine.execLen273 f s
  | .len274 f => Sys2Proof.Machine.execLen274 f s
  | .len275 f => Sys2Proof.Machine.execLen275 f s
  | .len276 f => Sys2Proof.Machine.execLen276 f s
  | .len277 f => Sys2Proof.Machine.execLen277 f s
  | .len278 f => Sys2Proof.Machine.execLen278 f s
  | .len279 f => Sys2Proof.Machine.execLen279 f s
  | .len280 f => Sys2Proof.Machine.execLen280 f s
  | .len281 f => Sys2Proof.Machine.execLen281 f s
  | .len282 f => Sys2Proof.Machine.execLen282 f s
  | .len283 f => Sys2Proof.Machine.execLen283 f s
  | .len284 f => Sys2Proof.Machine.execLen284 f s
  | .len285 f => Sys2Proof.Machine.execLen285 f s
  | .llReserved x => Sys2Proof.Machine.execLLReserved x s
  | .dist0 f => Sys2Proof.Machine.execDist0 f s
  | .dist1 f => Sys2Proof.Machine.execDist1 f s
  | .dist2 f => Sys2Proof.Machine.execDist2 f s
  | .dist3 f => Sys2Proof.Machine.execDist3 f s
  | .dist4 f => Sys2Proof.Machine.execDist4 f s
  | .dist5 f => Sys2Proof.Machine.execDist5 f s
  | .dist6 f => Sys2Proof.Machine.execDist6 f s
  | .dist7 f => Sys2Proof.Machine.execDist7 f s
  | .dist8 f => Sys2Proof.Machine.execDist8 f s
  | .dist9 f => Sys2Proof.Machine.execDist9 f s
  | .dist10 f => Sys2Proof.Machine.execDist10 f s
  | .dist11 f => Sys2Proof.Machine.execDist11 f s
  | .dist12 f => Sys2Proof.Machine.execDist12 f s
  | .dist13 f => Sys2Proof.Machine.execDist13 f s
  | .dist14 f => Sys2Proof.Machine.execDist14 f s
  | .dist15 f => Sys2Proof.Machine.execDist15 f s
  | .dist16 f => Sys2Proof.Machine.execDist16 f s
  | .dist17 f => Sys2Proof.Machine.execDist17 f s
  | .dist18 f => Sys2Proof.Machine.execDist18 f s
  | .dist19 f => Sys2Proof.Machine.execDist19 f s
  | .dist20 f => Sys2Proof.Machine.execDist20 f s
  | .dist21 f => Sys2Proof.Machine.execDist21 f s
  | .dist22 f => Sys2Proof.Machine.execDist22 f s
  | .dist23 f => Sys2Proof.Machine.execDist23 f s
  | .dist24 f => Sys2Proof.Machine.execDist24 f s
  | .dist25 f => Sys2Proof.Machine.execDist25 f s
  | .dist26 f => Sys2Proof.Machine.execDist26 f s
  | .dist27 f => Sys2Proof.Machine.execDist27 f s
  | .dist28 f => Sys2Proof.Machine.execDist28 f s
  | .dist29 f => Sys2Proof.Machine.execDist29 f s
  | .dReserved x => Sys2Proof.Machine.execDReserved x s
  | .matchCopy len dist => Sys2Proof.Machine.execMatchCopy len dist s
  | .trailer b => Sys2Proof.Machine.execTrailer b s
  | .start => Sys2Proof.Machine.execStart s
  | .eoi => Sys2Proof.Machine.execEoi s
  | .abort => Sys2Proof.Machine.execAbort s
  | .push b => Sys2Proof.Machine.execPush b s
  | .pop => Sys2Proof.Machine.execPop s
  | .wrConfig v => Sys2Proof.Machine.execWrConfig v s
  | .wrOutLimit v => Sys2Proof.Machine.execWrOutLimit v s
  | .wrCrcExpect v => Sys2Proof.Machine.execWrCrcExpect v s
  | .rdReg k => Sys2Proof.Machine.execRdReg k s
  | .crcInit => Sys2Proof.Machine.execCrcInit s
  | .crcByte b => Sys2Proof.Machine.execCrcByte b s
  | .rdCrcValue => Sys2Proof.Machine.execRdCrcValue s
  | .rdCrcStatus => Sys2Proof.Machine.execRdCrcStatus s

end Sys2Proof.Machine
end

