-- ==== Sys2Proof/Machine/Fetch.lean ====
section
/-! DEFINITION. What comes before a meaning: the context that PHASE and the registers give (R21, R80, R97), INF's next
step where it is a fill or a code bit (R13, R61, R125), the turns of the agenda (R17, R75), and how a word is placed
where the next step reads it (log 13). -/

namespace Sys2Proof.Machine

/-- What INF reads next (R21, R97); none at a register value its phase does not allow, which no run reaches (log 15). -/
def State.ctx (s : State) : Option Ctx :=
  match s.phase with
  | .zhdr => some (if s.sub = 0 then .cmf else .flg)
  | .bhdr => some .bhdr
  | .storedHdr => some (if s.sub = 0 then .storedLen else .storedNlen)
  | .storedCopy => some .storedByte
  | .dynHdr => some (if s.sub = 0 then .hlit else if s.sub = 1 then .hdist else .hclen)
  | .dynCl => some (if s.blk.lenIdx.toNat < s.blk.ncode.toNat then .clen else .clBuild)
  | .dynLens =>
    if s.blk.clSym = 0 then some (.clSym s.tabs.cl s.hc)
    else if s.blk.clSym = 16 then some .rep16
    else if s.blk.clSym = 17 then some .zero17
    else if s.blk.clSym = 18 then some .zero18
    else none
  | .dynBuild => some .dynBuild
  | .sym => some (.llSym s.tabs.ll s.hc)
  | .lit => some .litEmit
  | .lextra => some (.lenExtra s.copy.lSym)
  | .dist => some (.dSym s.tabs.d s.hc)
  | .dextra => some (.distExtra s.copy.dSym)
  | .copy => some (.copy s.copy.len s.copy.dist)
  | .trailer => some .trailer

/-- What a turn does: it runs rows in order from a state, or it ends without one. -/
inductive Action where
  | run (is : List Instr) (s : State)
  | fin (o : Out)

/-- The step of context c once its bits are in BITBUF (R13, R125). -/
def decodeAction (s : State) (c : Ctx) : Action :=
  match decode c (s.peek c.need) with
  | .ok (i, _) => .run [i] s
  | .error (.more h) => .fin (.next (s.codeMore h))
  | .error (.invalidCode h) => .fin (.next (s.codeInvalid c.need h))
  | .error .short => .fin (.fault .noSuchSymbol)
  | .error .noSymbol => .fin (.fault .noSuchSymbol)

/-- INF's turn while RUNNING: fill until the step's bits are in BITBUF, and then the step (R61, R62). -/
def runningAction (s : State) : Action :=
  match s.ctx with
  | none => .fin (.fault .noSuchSymbol)
  | some c => if s.inp.cnt.toNat < c.need then .fin (.next s.fill) else decodeAction s c

/-- INF's turn: while not RUNNING it takes no step (R17, R226; log 2). -/
def infAction (s : State) : Action :=
  match s.top with
  | .running => runningAction s
  | .idle => .fin (.next s)
  | .done => .fin (.next s)
  | .failed => .fin (.next s)

/-- The host's turn: its access is one atomic step (R24, R74); an access outside the interface is refused (R43). -/
def hostAction (a : Access) (s : State) : Action :=
  match decodeHost s.cfg.blockBase a with
  | .ok is => .run is s
  | .error r => .fin (.refused (.access r))

/-- The platform's reset input (R227; log 12). -/
def resetAction (s : State) : Action :=
  .fin (.next { State.resetWith s.cfg with agenda := s.agenda, rdata := s.rdata })

/-- The next turn of the total order of R75; with an empty agenda it is INF's (log 1). -/
def nextAction (s : State) : Action :=
  match s.agenda with
  | [] => infAction s
  | .inf :: rest => infAction { s with agenda := rest }
  | .host a :: rest => hostAction a { s with agenda := rest }
  | .reset :: rest => resetAction { s with agenda := rest }

/-- INF's next step is a fill that finds IN_FIFO empty with EOI_SEEN = 0 (R218). -/
def State.holdIn (s : State) : Bool :=
  match s.top, s.ctx with
  | .running, some c => decide (s.inp.cnt.toNat < c.need) && s.inp.fifo.isEmpty && !s.eoiSeen
  | _, _ => false

/-- INF's next step emits, its bits are there, and OUT_FIFO has no space (R218). -/
def State.holdOut (s : State) : Bool :=
  match s.top, s.phase with
  | .running, .lit => s.outFull
  | .running, .copy => s.outFull
  | .running, .storedCopy => decide (8 ≤ s.inp.cnt.toNat) && s.outFull
  | _, _ => false

/-- INF is held: a function of the state alone (R218). -/
def State.held (s : State) : Bool := s.holdIn || s.holdOut

/-! ## Placing a word (log 13) -/

/-- The HC registers before the last bit of the code that `bits` begin with, and the bits from that one on. -/
def beforeLast (t : Table) (h : Hc) : List Bool → Option (Hc × List Bool)
  | [] => none
  | b :: bs =>
    match codeBit t h b with
    | .more h' => beforeLast t h' bs
    | .sym _ => some (h, b :: bs)
    | .invalid _ => none
    | .noSymbol => none

/-- Whole bytes of bits in stream order, short of the last few bits. -/
def packBytes : Nat → List Bool → List Byte
  | 0, _ => []
  | n + 1, bits => BitVec.ofNat 8 (bitsVal (bits.take 8)) :: packBytes n (bits.drop 8)

/-- The bits are next: the first 16 in BITBUF, whole bytes of the rest at the front of IN_FIFO. -/
def State.placeBits (s : State) (bits : List Bool) : State :=
  let now := bits.take 16
  let later := bits.drop 16
  { s with
    inp :=
      { s.inp with
        fifo := packBytes (later.length / 8) later ++ s.inp.fifo
        buf := BitVec.ofNat 24 (bitsVal now)
        cnt := BitVec.ofNat 5 now.length } }

/-- INF is RUNNING at the first step of a phase. -/
def State.at (s : State) (p : Phase) : State := { (s.goto p) with top := .running }

/-- INF is where context c is read with bits next, a code of c up to its last bit. -/
def State.placeCtx (s : State) (c : Ctx) (bits : List Bool) : State :=
  match c with
  | .cmf => (s.at .zhdr).placeBits bits
  | .bhdr => (s.at .bhdr).placeBits bits
  | .hlit => (s.at .dynHdr).placeBits bits
  | .storedLen => (s.at .storedHdr).placeBits bits
  | .storedByte =>
    State.placeBits { s.at .storedCopy with blk := { s.blk with storedRem := s.blk.storedRem ||| 1 } } bits
  | .dynBuild => s.at .dynBuild
  | .llSym t h =>
    match beforeLast t h bits with
    | some (h', rest) => State.placeBits { s.at .sym with tabs := { s.tabs with ll := t }, hc := h' } rest
    | none => s
  | .dSym t h =>
    match beforeLast t h bits with
    | some (h', rest) => State.placeBits { s.at .dist with tabs := { s.tabs with d := t }, hc := h' } rest
    | none => s
  | .flg | .storedNlen | .hdist | .hclen | .clen | .clBuild | .clSym _ _ | .rep16 | .zero17 | .zero18 | .litEmit
  | .lenExtra _ | .distExtra _ | .copy _ _ | .trailer => s

/-- The access a table word stands for, at the block's base address. -/
def Access.at (base : Nat) (a : Access) : Access :=
  match a with
  | .read addr width => .read (base + addr) width
  | .write addr width v => .write (base + addr) width v

/-- INF's turn is next. -/
def State.infNext (s : State) : State :=
  match s.agenda with
  | [] => s
  | _ :: _ => { s with agenda := .inf :: s.agenda }

/-- A table word is where the next step reads it. -/
def State.place (s : State) (w : TableWord) : State :=
  match w with
  | .stream c bits => (s.placeCtx c bits).infNext
  | .host a => { s with agenda := .host (Access.at s.cfg.blockBase a) :: s.agenda }

end Sys2Proof.Machine
end

