-- ==== Sys2Proof/Machine/Step.lean ====
section
/-! DEFINITION. One step of the block: the next turn of the total order of R75 (log 1). -/

namespace Sys2Proof.Machine

/-- Run rows in order, as one atomic step (R24); a fault or a refusal ends it. -/
def runAll : List Instr → State → Out
  | [], s => .next s
  | i :: is, s =>
    match exec i s with
    | .next t => runAll is t
    | .fault f => .fault f
    | .refused r => .refused r

/-- What an action comes to. -/
def Action.out : Action → Out
  | .run is s => runAll is s
  | .fin o => o

/-- One step: one turn of R75. -/
def step (s : State) : Out := (nextAction s).out

/-- The word where the next step reads it (log 13, log 14). A word that no form of the table fits changes nothing. -/
def State.withFetchWord (s : State) (nbits w : Nat) : State :=
  match tableWord nbits w with
  | some p => s.place p
  | none => s

end Sys2Proof.Machine
end

