-- ==== Sys2Proof/Machine/System.lean ====
section
/-! DEFINITION. N_INSTANCES independent blocks (R7, R224): a list of states, of which one takes a step at a time. -/

namespace Sys2Proof.Machine

/-- Instance k takes one step; the others share nothing with it (R224). None where there is no instance k, or its step
stops. -/
def systemStep (k : Nat) (sys : List State) : Option (List State) :=
  match sys[k]? with
  | none => none
  | some s =>
    match step s with
    | .next t => some (sys.set k t)
    | .fault _ => none
    | .refused _ => none

end Sys2Proof.Machine
end

