-- ==== Sys2Proof/Safety.lean ====
section
/-! DEFINITION. The terms claims are stated in: when a step's operands are there, what an emit and an error leave, the
input still to be read, and the invariants of the machine. -/

namespace Sys2Proof.Machine

/-! ## When a row completes -/

/-- INF is RUNNING and n bits are in BITBUF. -/
def State.ready (s : State) (n : Nat) : Prop := s.top = .running ∧ n ≤ s.inp.cnt.toNat

/-- OUT_FIFO has space (R218). -/
def State.canEmit (s : State) : Prop := s.out.fifo.length < s.cfg.outDepth

/-- The stream has emitted as many bytes as LIM allows (R136). -/
def State.atLimit (s : State) : Prop := s.ctl.lim ≠ 0 ∧ s.ctl.lim.toNat ≤ s.out.count.toNat

/-- Neither check of R136 raises. -/
def State.mayEmit (s : State) : Prop := ¬ s.atLimit ∧ s.out.count ≠ 0xFFFFFFFF

/-- s once INF's step has taken n bits: both hold flags are clear (R62, R218). -/
def State.took (s : State) (n : Nat) : State :=
  { s with
    heldIn := false
    heldOut := false
    inp := { s.inp with buf := s.inp.buf >>> n, cnt := BitVec.ofNat 5 (s.inp.cnt.toNat - n) } }

/-- s after R214 with the codes of R213 for the kind and the cause. -/
def State.stopped (s : State) (kind cause : Nat) : State :=
  { s with
    err := { kind := BitVec.ofNat 4 kind, cause := BitVec.ofNat 8 cause, bits := s.inp.cnt, byte := s.inp.count }
    top := .failed }

/-- s in phase p, at its first step. -/
def State.into (s : State) (p : Phase) : State := { s with phase := p, sub := 0 }

/-- s with the unread bits of its byte discarded (R63). -/
def State.aligned (s : State) : State :=
  { s with
    inp :=
      { s.inp with
        buf := s.inp.buf >>> (s.inp.cnt.toNat % 8)
        cnt := BitVec.ofNat 5 (s.inp.cnt.toNat - s.inp.cnt.toNat % 8) } }

/-- s after the end of its block (R118). -/
def State.blockOver (s : State) : State := if s.blk.bfinal then s.aligned.into .trailer else s.into .bhdr

/-- What the output side is after one emitted byte (R67, R114, R136): the only window cell written is WP's. -/
structure Output.Emits (o : Output) (b : Byte) (o' : Output) : Prop where
  fifo : o'.fifo = o.fifo ++ [b]
  count : o'.count.toNat = o.count.toNat + 1
  cell : Memory.read o'.win o.wp.toNat = some b
  others : ∀ a, a ≠ o.wp.toNat → Memory.read o'.win a = Memory.read o.win a
  wp : o'.wp.toNat = (o.wp.toNat + 1) % 32768
  hist : o'.hist.toNat = min (o.hist.toNat + 1) 32768
  s1 : o'.s1.toNat = (o.s1.toNat + b.toNat) % 65521
  s2 : o'.s2.toNat = (o.s2.toNat + o'.s1.toNat) % 65521

/-- A length symbol's row (R137, R140): the step of its code, and the step of its extra bits at every value. -/
def lengthRow {k : Nat} (row : SymStep k → Instr) (sym base : Nat) : Prop :=
  (∀ s : State, s.ready 1 →
    exec (row .code) s =
      .next
        (State.into { s.took 1 with hc := Hc.zero, copy := { s.copy with lSym := BitVec.ofNat 9 sym } } .lextra)) ∧
  ∀ (e : BitVec k) (s : State), s.ready k →
    exec (row (.extra e)) s =
      .next
        (State.into
          { s.took k with copy := { s.copy with pendLen := BitVec.ofNat 9 (base + e.toNat), lSym := 0 } } .dist)

/-- A distance symbol's row (R141, R142): the step of its code, and the step of its extra bits at every value, which
starts the copy where the distance reaches no further than HIST_VALID and raises DIST_TOO_FAR where it does. -/
def distanceRow {k : Nat} (row : SymStep k → Instr) (sym base : Nat) : Prop :=
  (∀ s : State, s.ready 1 →
    exec (row .code) s =
      .next
        (State.into { s.took 1 with hc := Hc.zero, copy := { s.copy with dSym := BitVec.ofNat 5 sym } } .dextra)) ∧
  ∀ (e : BitVec k) (s : State), s.ready k →
    (base + e.toNat ≤ s.out.hist.toNat →
      exec (row (.extra e)) s =
        .next
          (State.into
            { s.took k with
              copy :=
                { s.copy with
                  dist := BitVec.ofNat 16 (base + e.toNat), len := s.copy.pendLen, pendLen := 0, dSym := 0 } }
            .copy)) ∧
    (s.out.hist.toNat < base + e.toNat → exec (row (.extra e)) s = .next ((s.took k).stopped 5 20))

end Sys2Proof.Machine

namespace Sys2Proof

/-! ## Tables and codes -/

/-- The symbols of n lengths that a code may be built from: no more than the largest alphabet. -/
def lensOk (lens : List (BitVec 4)) : Prop := lens.length ≤ Config.llSyms

/-- How many symbols the table has codes for, by its counts. -/
def Table.total (t : Table) : Nat := (t.count.map BitVec.toNat).sum

/-- How many symbols have codes of at most l bits. -/
def Table.upTo (t : Table) (l : Nat) : Nat := ((t.count.map BitVec.toNat).take l).sum

/-- A table as R50 describes it, over an alphabet of n symbols. -/
structure Table.formed (t : Table) (n : Nat) : Prop where
  lengths : t.count.length = 15
  total : t.total = t.syms.length
  size : t.syms.length ≤ n
  symbols : ∀ x ∈ t.syms, x.toNat < n

/-- A table whose codes decode: no symbol twice, no over-subscription, not EMPTY, and SINGLE only where all its codes
have one bit. -/
structure Table.codes (t : Table) : Prop where
  formed : t.formed Config.llSyms
  nodup : t.syms.Nodup
  notOver : t.left ≠ none
  notEmpty : t.empty = false
  single : t.single = true → t.countOf 1 = t.syms.length

/-- The registers of R51 hold the progress of a decode with table t (R125). -/
structure Hc.within (h : Hc) (t : Table) : Prop where
  len : h.len.toNat < 15
  index : h.index.toNat = t.upTo h.len.toNat
  first : h.first.toNat ≤ h.code.toNat
  code : h.code.toNat < 2 ^ (h.len.toNat + 1)

end Sys2Proof

namespace Sys2Proof.Machine

/-! ## Invariants that every step keeps -/

/-- The bit reader (R46): no bit of BITBUF at or above BITCNT, which is at most 23. -/
structure State.ReaderInv (s : State) : Prop where
  cnt : s.inp.cnt.toNat ≤ 23
  buf : s.inp.buf.toNat < 2 ^ s.inp.cnt.toNat
  taken : s.inp.cnt.toNat ≤ 8 * s.inp.count.toNat
  boundary : s.top = .running → s.inp.cnt.toNat ≤ 7 ∨ ∃ c, s.ctx = some c ∧ s.inp.cnt.toNat ≤ c.need + 7

/-- The FIFOs hold no more than their depths (R45). -/
structure State.FifoInv (s : State) : Prop where
  input : s.inp.fifo.length ≤ s.cfg.inDepth
  output : s.out.fifo.length ≤ s.cfg.outDepth

/-- The Adler-32 sums are reduced (R54, R114). -/
structure State.AdlerInv (s : State) : Prop where
  s1 : s.out.s1.toNat < 65521
  s2 : s.out.s2.toNat < 65521

/-- The window and its pointers (R53, R58): canonical form, HIST_VALID and WP as OUT_COUNT gives them, and a byte in
every cell a copy may reach. -/
structure State.WindowInv (s : State) : Prop where
  form : Memory.wf s.out.win = true
  hist : s.out.hist.toNat = min s.out.count.toNat 32768
  wp : s.out.wp.toNat = s.out.count.toNat % 32768
  cells : ∀ d, 1 ≤ d → d ≤ s.out.hist.toNat → (Memory.read s.out.win (winCell s.out.wp d)).isSome

/-- The error registers (R27, R213, R214): all 0 but in FAILED, where they name one of the 26 causes and its kind. -/
structure State.ErrInv (s : State) : Prop where
  clear : s.top ≠ .failed → s.err = { kind := 0, cause := 0, bits := 0, byte := 0 }
  named : s.top = .failed →
    ∃ c : ErrCause, s.err.kind.toNat = c.kind.code ∧ s.err.cause.toNat = c.code ∧ s.err.bits.toNat ≤ 23

/-- Where a stream's registers stand in each phase (R48, R51, R52, R58, R126): what keeps INF's next step defined. -/
structure State.StreamInv (s : State) : Prop where
  lens : s.blk.lens.length = 320
  clLens : s.blk.clLens.length = 19
  clSym : s.top = .running → s.blk.clSym = 0 ∨ s.blk.clSym = 16 ∨ s.blk.clSym = 17 ∨ s.blk.clSym = 18
  counts : s.top = .running → (s.phase = .dynCl ∨ s.phase = .dynLens ∨ s.phase = .dynBuild) →
    s.blk.nlen.toNat ≤ 286 ∧ s.blk.ndist.toNat ≤ 30
  cl : s.top = .running → s.phase = .dynLens → s.tabs.cl.formed 19 ∧ s.tabs.cl.left = some 0
  clHc : s.top = .running → s.phase = .dynLens → s.blk.clSym = 0 → s.hc.within s.tabs.cl
  ll : s.top = .running →
    (s.phase = .sym ∨ s.phase = .lit ∨ s.phase = .lextra ∨ s.phase = .dist ∨ s.phase = .dextra ∨ s.phase = .copy) →
    s.tabs.ll.formed 288 ∧ s.tabs.d.formed 32 ∧ s.tabs.ll.left = some 0 ∧ s.tabs.d.left ≠ none ∧
      (s.tabs.d.left = some 0 ∨ s.ctl.allow = true ∧ (s.tabs.d.empty = true ∨ s.tabs.d.single = true))
  llHc : s.top = .running → s.phase = .sym → s.hc.within s.tabs.ll
  dHc : s.top = .running → s.phase = .dist → s.hc.within s.tabs.d
  idle : s.top = .running → s.phase ≠ .dynLens → s.phase ≠ .sym → s.phase ≠ .dist → s.hc = Hc.zero
  waiting : s.top = .running → s.phase = .dynLens → s.blk.clSym ≠ 0 → s.hc = Hc.zero
  lSym : s.top = .running → s.phase = .lextra → 257 ≤ s.copy.lSym.toNat ∧ s.copy.lSym.toNat ≤ 285
  pend : s.top = .running → (s.phase = .dist ∨ s.phase = .dextra) →
    3 ≤ s.copy.pendLen.toNat ∧ s.copy.pendLen.toNat ≤ 258
  dSym : s.top = .running → s.phase = .dextra → s.copy.dSym.toNat < 30
  copy : s.top = .running → s.phase = .copy →
    1 ≤ s.copy.len.toNat ∧ s.copy.len.toNat ≤ 258 ∧ 1 ≤ s.copy.dist.toNat ∧ s.copy.dist.toNat ≤ s.out.hist.toNat

/-- A state from which no step faults (R58). -/
structure State.Inv (s : State) : Prop where
  reader : s.ReaderInv
  window : s.WindowInv
  stream : s.StreamInv

/-! ## What a run has read and written -/

/-- The input bits INF has not consumed, in stream order: BITBUF's, then those of IN_FIFO's bytes (R59). -/
def State.unread (s : State) : List Bool :=
  natBits s.inp.cnt.toNat s.inp.buf.toNat ++ s.inp.fifo.flatMap fun b => natBits 8 b.toNat

/-- The output side holds exactly what emitting the bytes `bs` since START leaves in the window, its pointers and
OUT_COUNT (R53, R145). -/
structure Output.holds (o : Output) (bs : List Byte) : Prop where
  count : o.count.toNat = bs.length
  hist : o.hist.toNat = min bs.length 32768
  wp : o.wp.toNat = bs.length % 32768
  cells : ∀ d, 1 ≤ d → d ≤ min bs.length 32768 → Memory.read o.win (winCell o.wp d) = bs[bs.length - d]?

/-- INF's turn, whatever the agenda holds. -/
def infStep (s : State) : Out := (infAction s).out

/-- The CRC register after a byte sequence (R209, R212). -/
def crcFeed (r : Word) (m : List Byte) : Word := m.foldl crcUpdate r

end Sys2Proof.Machine
end

