-- ==== Sys2Proof/Certificates/Slice0/Obligations.lean ====
section
/-! DEFINITION. The obligations: what is claimed of the model, each with the rules of spec/ it rests on. Where a
statement names `sub`, `agenda` or `rdata`, that clause is about a field of the model's own (log 1, log 7, log 8). -/

open Sys2Proof Sys2Proof.Machine

/-! ## Encoding -/

/-- Words written out bit by bit from 30_encoding.md (first stream bit first) decode to the rows they stand for, one
or more for each family (R59, R60, R81 to R93, R98). -/
def Obligations.SpecWordsDecode : Prop :=
  decode .cmf [false, false, false, true, true, true, true, false] = .ok (.zhdrCmf 0x78, []) ∧
  decode .flg [true, false, false, false, false, false, false, false] = .ok (.zhdrFlg 0x01, []) ∧
  decode .bhdr [true, false, false] = .ok (.blockStored true, []) ∧
  decode .bhdr [true, true, false] = .ok (.blockFixed true, []) ∧
  decode .bhdr [false, false, true] = .ok (.blockDynamic false, []) ∧
  decode .bhdr [false, true, true] = .ok (.blockReserved false, []) ∧
  decode .storedLen (natBits 8 0x02 ++ natBits 8 0x00) = .ok (.storedHdr (.len 2), []) ∧
  decode .hdist [true, false, false, false, false] = .ok (.dynHdr (.hdist 1), []) ∧
  decode .rep16 [false, true] = .ok (.clRep16 (.extra 2), []) ∧
  decode .zero18 [false, true, true, false, true, false, true] = .ok (.clZero18 (.extra 86), []) ∧
  decode (.llSym fixedLL Hc.zero) [false, true, true, true, true, false, false, false] =
    .ok (.lit (.code 0x48), []) ∧
  decode (.llSym fixedLL Hc.zero) [false, false, false, false, false, false, false] = .ok (.eob, []) ∧
  decode (.llSym fixedLL Hc.zero) [true, true, false, false, false, true, true, false] = .ok (.llReserved 0, []) ∧
  decode (.llSym fixedLL Hc.zero) [false, false, false, true, false, false, true, true] =
    .ok (.len265 .code, [true]) ∧
  decode (.lenExtra 265) [true] = .ok (.len265 (.extra 1), []) ∧
  decode (.dSym fixedD Hc.zero) [true, true, true, false, true] = .ok (.dist29 .code, []) ∧
  decode (.distExtra 4) [true] = .ok (.dist4 (.extra 1), []) ∧
  decode .trailer [false, true, false, false, true, true, false, true] = .ok (.trailer 0xB2, []) ∧
  decodeHost 0x1000 (.write 0x1000 4 3) = .ok [.start, .eoi] ∧
  decodeHost 0x1000 (.write 0x1020 4 0x1FF) = .ok [.push 0xFF] ∧
  decodeHost 0x1000 (.read 0x1024 4) = .ok [.pop]

/-- Every well-formed row of the stream, at every operand value, decodes from what it encodes to, with whatever bits
follow left over. A row whose symbol has no code in its table has no encoding and is the only kind shut out. -/
def Obligations.StreamDecodeInvertsEncode : Prop :=
  ∀ (ts : Tables) (i : Instr) (c : Ctx) (rest : List Bool),
    ts.cl.codes → ts.ll.codes → ts.d.codes → i.wf = true → i.ctx ts = some c → (c.need = 0 ∨ encode ts i ≠ []) →
    decode c (encode ts i ++ rest) = .ok (i, rest)

/-- Every well-formed host row, at every operand value and every base address, is what its own access decodes to. -/
def Obligations.HostDecodeInvertsEncode : Prop :=
  ∀ (base : Nat) (i : Instr) (a : Access), i.wf = true → encodeHost base i = some a → decodeHost base a = .ok [i]

/-- The decoder reads the code the canonical assignment gives a symbol as that symbol, sent most significant bit
first, for every set of code lengths that is not over-subscribed (R60, R121, R122, R125). -/
def Obligations.CanonicalCodesDecode : Prop :=
  ∀ (lens : List (BitVec 4)) (s : Nat) (rest : List Bool),
    lensOk lens → (buildTable lens).left ≠ none → s < lens.length → lens.getD s 0 ≠ 0 →
    decodeCode (buildTable lens) Hc.zero (codeBits (lens.getD s 0).toNat (canonicalCode lens s) ++ rest) =
      .ok (s, rest)

/-- A complete set of code lengths: any 15 bits begin with the code of exactly one symbol, and the decoder returns that
symbol after the bits of its code, at most 15; and no bits make it raise INVALID_CODE (R126). -/
def Obligations.CompleteCodesDecode : Prop :=
  ∀ (lens : List (BitVec 4)) (bits : List Bool),
    lensOk lens → (buildTable lens).left = some 0 →
    (15 ≤ bits.length →
      ∃ s rest, s < lens.length ∧ lens.getD s 0 ≠ 0 ∧
        decodeCode (buildTable lens) Hc.zero bits = .ok (s, rest) ∧
        codeBits (lens.getD s 0).toNat (canonicalCode lens s) ++ rest = bits ∧ bits.length ≤ rest.length + 15 ∧
        ∀ s', s' < lens.length → lens.getD s' 0 ≠ 0 →
          codeBits (lens.getD s' 0).toNat (canonicalCode lens s') <+: bits → s' = s) ∧
    ∀ h, decodeCode (buildTable lens) Hc.zero bits ≠ .error (.invalidCode h)

/-- The codes of the fixed tables are the ones R93 lists, and the tables are what Build gives for its lengths. -/
def Obligations.FixedCodes : Prop :=
  fixedLL = buildTable fixedLLLens ∧ fixedD = buildTable fixedDLens ∧
  (∀ v, v ≤ 143 → symBits fixedLL v = codeBits 8 (0x30 + v)) ∧
  (∀ v, 144 ≤ v → v ≤ 255 → symBits fixedLL v = codeBits 9 (0x190 + (v - 144))) ∧
  (∀ v, 256 ≤ v → v ≤ 279 → symBits fixedLL v = codeBits 7 (v - 256)) ∧
  (∀ v, 280 ≤ v → v ≤ 287 → symBits fixedLL v = codeBits 8 (0xC0 + (v - 280))) ∧
  ∀ v, v ≤ 31 → symBits fixedD v = codeBits 5 v

/-- `MATCH len dist` of the trace notation stands for four fields, and running them from SYM with the history the
distance needs leaves the copy engine with that length and distance (R100, R140, R142). -/
def Obligations.MatchNotationRuns : Prop :=
  ∀ len dist : Nat, 3 ≤ len → len ≤ 258 → 1 ≤ dist → dist ≤ 32768 →
    ∃ is, matchRows len dist = some is ∧ is.length = 4 ∧
      ∀ s : State, s.top = .running → dist ≤ s.out.hist.toNat →
        ∃ t, runAll is s = .next t ∧ t.phase = .copy ∧ t.copy.len.toNat = len ∧ t.copy.dist.toNat = dist ∧
          t.out = s.out ∧ t.err = s.err ∧ t.top = .running

/-! ## Building and checking tables -/

/-- Build's table lists the used symbols once each, by (length, symbol), with their counts (R122); and `left` is 2^15
less the Kraft sum: over-subscribed above 1, complete at 1, incomplete below (R123). -/
def Obligations.BuildAndKraftCheck : Prop :=
  (∀ lens : List (BitVec 4), lensOk lens →
     let t := buildTable lens
     (∀ l, 1 ≤ l → l ≤ 15 → t.countOf l = lens.countP fun x => x.toNat == l) ∧
     (∀ x : BitVec 9, x ∈ t.syms ↔ x.toNat < lens.length ∧ lens.getD x.toNat 0 ≠ 0) ∧
     t.syms.Pairwise (fun x y =>
       (lens.getD x.toNat 0).toNat < (lens.getD y.toNat 0).toNat ∨
       lens.getD x.toNat 0 = lens.getD y.toNat 0 ∧ x.toNat < y.toNat) ∧
     t.empty = false ∧ t.single = false) ∧
  ∀ lens : List (BitVec 4), lensOk lens →
    let k := (lens.map fun x => if x = 0 then 0 else 2 ^ (15 - x.toNat)).sum
    ((buildTable lens).left = none ↔ 32768 < k) ∧ ∀ n, (buildTable lens).left = some n ↔ k + n = 32768

/-! ## The step -/

/-- INF's turn with the bits of its step in BITBUF runs the decoded row, from a state that only lost the turn; a host
turn runs the row its access decodes to. -/
def Obligations.StepRunsDecoded : Prop :=
  (∀ (s : State) (rest : List Turn) (c : Ctx) (i : Instr) (left : List Bool),
    s.agenda = .inf :: rest → s.top = .running → s.ctx = some c → c.need ≤ s.inp.cnt.toNat →
    decode c (s.peek c.need) = .ok (i, left) → step s = exec i { s with agenda := rest }) ∧
  (∀ (s : State) (c : Ctx) (i : Instr) (left : List Bool),
    s.agenda = [] → s.top = .running → s.ctx = some c → c.need ≤ s.inp.cnt.toNat →
    decode c (s.peek c.need) = .ok (i, left) → step s = exec i s) ∧
  ∀ (s : State) (a : Access) (rest : List Turn) (i : Instr),
    s.agenda = .host a :: rest → decodeHost s.cfg.blockBase a = .ok [i] → step s = exec i { s with agenda := rest }

/-- One write to CTRL performs ABORT, START and EOI, those whose bits are set, in that order and as one step; a read
of CTRL returns 0 (R24). -/
def Obligations.CtrlPerformsInOrder : Prop :=
  (∀ (s : State) (rest : List Turn) (v : Word),
    s.agenda = .host (.write s.cfg.blockBase 4 v) :: rest →
    ∃ a b t,
      (if v.getLsbD 2 then exec .abort { s with agenda := rest } = .next a else a = { s with agenda := rest }) ∧
      (if v.getLsbD 0 then exec .start a = .next b else b = a) ∧
      (if v.getLsbD 1 then exec .eoi b = .next t else t = b) ∧
      step s = .next t) ∧
  ∀ (s : State) (rest : List Turn), s.agenda = .host (.read s.cfg.blockBase 4) :: rest →
    step s = .next { s with agenda := rest, rdata := 0 }

/-- A fill step, in its four cases, where the bits of INF's next step are not all in BITBUF (R61, R218). -/
def Obligations.FillStep : Prop :=
  ∀ (s : State) (c : Ctx),
    s.agenda = [] → s.top = .running → s.ctx = some c → s.inp.cnt.toNat < c.need →
    (∀ b rest, s.inp.fifo = b :: rest → s.inp.count ≠ 0xFFFFFFFF →
      step s =
        .next
          { s with
            heldIn := false
            heldOut := false
            inp :=
              { fifo := rest
                buf := s.inp.buf ||| (b.setWidth 24 <<< s.inp.cnt.toNat)
                cnt := s.inp.cnt + 8
                count := s.inp.count + 1 } }) ∧
    (s.inp.fifo ≠ [] → s.inp.count = 0xFFFFFFFF → step s = .next ((s.took 0).stopped 7 24)) ∧
    (s.inp.fifo = [] → s.eoiSeen = true → step s = .next ((s.took 0).stopped 3 21)) ∧
    (s.inp.fifo = [] → s.eoiSeen = false → step s = .next { s with heldIn := true })

/-- A code bit that ends no code: INF's turn consumes the bit and writes the HC registers as R125 says, INVALID_CODE
where the table is SINGLE or the bit is the 15th; and a distance decode with an EMPTY table fails before any bit. What
the HC registers hold after INVALID_CODE (HC_CODE and HC_LEN written, HC_FIRST and HC_INDEX kept) is the model's reading
of R214, by which the writes before the Fail stand (log 18). -/
def Obligations.CodeBitStep : Prop :=
  (∀ (s : State) (c : Ctx) (t : Table),
     s.agenda = [] → s.ready 1 → s.ctx = some c →
     (c = .clSym t s.hc ∨ c = .llSym t s.hc ∨ c = .dSym t s.hc) → s.hc.within t →
     emptyStop t s.hc = false →
     let code := s.hc.code.toNat ||| (s.inp.buf.getLsbD 0).toNat
     let len := s.hc.len.toNat + 1
     s.hc.first.toNat + t.countOf len ≤ code →
     (t.single = false → len < 15 →
       step s =
         .next
           { s.took 1 with
             hc :=
               { code := BitVec.ofNat 16 (2 * code)
                 first := BitVec.ofNat 16 (2 * (s.hc.first.toNat + t.countOf len))
                 index := BitVec.ofNat 9 (s.hc.index.toNat + t.countOf len)
                 len := BitVec.ofNat 4 len } }) ∧
     (t.single = true ∨ len = 15 →
       step s =
         .next
           (State.stopped
             { s.took 1 with hc := { s.hc with code := BitVec.ofNat 16 code, len := BitVec.ofNat 4 len } } 5 17))) ∧
  ∀ s : State, s.agenda = [] → s.top = .running → s.phase = .dist → s.tabs.d.empty = true → s.hc.len = 0 →
    step s = .next ((s.took 0).stopped 5 17)

/-- Every access that is not a 32-bit access at a multiple of 4 inside the block's 128 bytes is refused, and no other
turn is (R43, R69, R74). -/
def Obligations.OnlyBadAccessesRefused : Prop :=
  ∀ s : State, (∃ r, step s = .refused r) ↔
    ∃ rest addr width, (s.agenda = .host (.read addr width) :: rest ∨
        ∃ v, s.agenda = .host (.write addr width v) :: rest) ∧
      ¬ (width = 4 ∧ s.cfg.blockBase ≤ addr ∧ addr < s.cfg.blockBase + 128 ∧ (addr - s.cfg.blockBase) % 4 = 0)

/-! ## The rows of the stream -/

/-- The zlib header bytes: CMF is taken without a check; a header that passes the four checks leads to BHDR; the first
check that fails raises its error with both bytes visible (R111, R112, R113, R216). -/
def Obligations.ZlibHeader : Prop :=
  ((∀ (v : Byte) (s : State), s.ready 8 →
     exec (.zhdrCmf v) s = .next { s.took 8 with zl := { s.zl with cmf := v }, sub := 1 }) ∧
   ∀ (v : Byte) (s : State), s.ready 8 →
     (256 * s.zl.cmf.toNat + v.toNat) % 31 = 0 → s.zl.cmf.toNat % 16 = 8 → s.zl.cmf.toNat / 16 ≤ 7 →
     v.getLsbD 5 = false →
     exec (.zhdrFlg v) s = .next (State.into { s.took 8 with zl := { s.zl with flg := v } } .bhdr)) ∧
  ∀ (v : Byte) (s : State), s.ready 8 →
    let t : State := { s.took 8 with zl := { s.zl with flg := v } }
    let fcheck := (256 * s.zl.cmf.toNat + v.toNat) % 31 = 0
    let cm := s.zl.cmf.toNat % 16 = 8
    let cinfo := s.zl.cmf.toNat / 16 ≤ 7
    (¬ fcheck → exec (.zhdrFlg v) s = .next (t.stopped 1 1)) ∧
    (fcheck → ¬ cm → exec (.zhdrFlg v) s = .next (t.stopped 6 2)) ∧
    (fcheck → cm → ¬ cinfo → exec (.zhdrFlg v) s = .next (t.stopped 6 3)) ∧
    (fcheck → cm → cinfo → v.getLsbD 5 = true → exec (.zhdrFlg v) s = .next (t.stopped 6 4))

/-- A block header by its type: stored aligns in the same step, fixed loads the fixed tables, dynamic goes on to its
counts, and the reserved type raises BTYPE_RESERVED with the header visible (R63, R117, R127). -/
def Obligations.BlockHeaderByType : Prop :=
  ∀ (f : Bool) (s : State), s.ready 3 →
    exec (.blockStored f) s =
      .next (((State.aligned { s.took 3 with blk := { s.blk with bfinal := f, btype := 0 } })).into .storedHdr) ∧
    exec (.blockFixed f) s =
      .next
        (State.into
          { s.took 3 with
            blk := { s.blk with bfinal := f, btype := 1 }
            tabs := { s.tabs with ll := buildTable fixedLLLens, d := buildTable fixedDLens } } .sym) ∧
    exec (.blockDynamic f) s =
      .next (State.into { s.took 3 with blk := { s.blk with bfinal := f, btype := 2 } } .dynHdr) ∧
    exec (.blockReserved f) s =
      .next (State.stopped { s.took 3 with blk := { s.blk with bfinal := f, btype := 3 } } 5 5)

/-- A stored block: LEN; NLEN, which raises STORED_NLEN where it is not the ones' complement of LEN, ends the block
where LEN = 0 and leads to the copy otherwise; and each byte, emitted and counted off, the last one ending the block
(R118, R119, R120, R136). -/
def Obligations.StoredBlockRows : Prop :=
  ((∀ (v : BitVec 16) (s : State), s.ready 16 →
     exec (.storedHdr (.len v)) s = .next { s.took 16 with blk := { s.blk with storedRem := v }, sub := 1 }) ∧
   ∀ (n : BitVec 16) (s : State), s.ready 16 →
     (s.blk.storedRem.toNat + n.toNat ≠ 65535 →
       exec (.storedHdr (.nlen n)) s = .next ((s.took 16).stopped 5 6)) ∧
     (s.blk.storedRem.toNat + n.toNat = 65535 → s.blk.storedRem = 0 →
       exec (.storedHdr (.nlen n)) s = .next (s.took 16).blockOver) ∧
     (s.blk.storedRem.toNat + n.toNat = 65535 → s.blk.storedRem ≠ 0 →
       exec (.storedHdr (.nlen n)) s = .next ((s.took 16).into .storedCopy))) ∧
  ∀ (b : Byte) (s : State), s.ready 8 → s.canEmit → s.mayEmit → 1 ≤ s.blk.storedRem.toNat →
    ∃ o : Output, s.out.Emits b o ∧
      let t : State := { s.took 8 with out := o, blk := { s.blk with storedRem := s.blk.storedRem - 1 } }
      exec (.storedByte b) s = .next (if s.blk.storedRem = 1 then t.blockOver else t)

/-- A literal: the step of its code latches it, whatever OUT_FIFO holds, and the emit step emits it (R137, R138). -/
def Obligations.LiteralLatchesThenEmits : Prop :=
  (∀ (b : Byte) (s : State), s.ready 1 →
    exec (.lit (.code b)) s =
      .next (State.into { s.took 1 with hc := Hc.zero, copy := { s.copy with litByte := b } } .lit)) ∧
  ∀ s : State, s.top = .running → s.canEmit → s.mayEmit →
    ∃ o : Output, s.out.Emits s.copy.litByte o ∧
      exec (.lit .emit) s =
        .next (State.into { s.took 0 with out := o, copy := { s.copy with litByte := 0 } } .sym)

/-- A copied byte is the one emitted COPY_DIST bytes ago, read before the emit overwrites its cell; the last one leads
back to SYM (R68, R143). -/
def Obligations.CopyEmitsWindowByte : Prop :=
  ∀ (len : BitVec 9) (dist : BitVec 16) (s : State) (b : Byte),
    s.top = .running → s.canEmit → s.mayEmit → 1 ≤ len.toNat → 1 ≤ dist.toNat → dist.toNat ≤ s.out.hist.toNat →
    Memory.read s.out.win ((s.out.wp.toNat + 32768 - dist.toNat) % 32768) = some b →
    ∃ o : Output, s.out.Emits b o ∧
      let t : State := { s.took 0 with out := o, copy := { s.copy with len := len - 1 } }
      exec (.matchCopy len dist) s = .next (if len = 1 then t.into .sym else t)

/-- What an emit step does where R218 holds or R136 raises: with OUT_FIFO full only HELD_OUT is written; OUT_LIMIT comes
before COUNT_WRAP, nothing is emitted, and the stored byte's 8 bits, which are in BITBUF, are consumed all the same
(R136, R214, R216); and a MATCH outside the history, or of a cell with no value, is a fault of the model, never a value
(R68; log 5). -/
def Obligations.EmitStepsStopOrWait : Prop :=
  (∀ (b : Byte) (len : BitVec 9) (dist : BitVec 16) (s : State), s.top = .running →
     (¬ s.canEmit →
       (s.ready 8 → exec (.storedByte b) s = .next { s with heldOut := true }) ∧
       exec (.lit .emit) s = .next { s with heldOut := true } ∧
       exec (.matchCopy len dist) s = .next { s with heldOut := true }) ∧
     (s.canEmit → s.atLimit →
       (s.ready 8 → exec (.storedByte b) s = .next ((s.took 8).stopped 7 23)) ∧
       exec (.lit .emit) s = .next ((s.took 0).stopped 7 23)) ∧
     (s.canEmit → ¬ s.atLimit → s.out.count = 0xFFFFFFFF →
       (s.ready 8 → exec (.storedByte b) s = .next ((s.took 8).stopped 7 24)) ∧
       exec (.lit .emit) s = .next ((s.took 0).stopped 7 24)) ∧
     (s.canEmit → 1 ≤ dist.toNat → dist.toNat ≤ s.out.hist.toNat →
       (Memory.read s.out.win (winCell s.out.wp dist.toNat)).isSome →
       (s.atLimit → exec (.matchCopy len dist) s = .next ((s.took 0).stopped 7 23)) ∧
       (¬ s.atLimit → s.out.count = 0xFFFFFFFF → exec (.matchCopy len dist) s = .next ((s.took 0).stopped 7 24)))) ∧
  ∀ (len : BitVec 9) (dist : BitVec 16) (s : State), s.top = .running → s.canEmit →
    (dist = 0 ∨ s.out.hist.toNat < dist.toNat →
      exec (.matchCopy len dist) s = .fault (.winReadOutOfRange dist.toNat)) ∧
    (1 ≤ dist.toNat → dist.toNat ≤ s.out.hist.toNat →
      Memory.read s.out.win (winCell s.out.wp dist.toNat) = none →
      exec (.matchCopy len dist) s = .fault (.winUnwritten (winCell s.out.wp dist.toNat)))

/-- The end-of-block symbol ends the block in the step that decodes it (R118, R139); the reserved symbols 286, 287 and
30, 31 raise BAD_LL_SYM and BAD_D_SYM, their last code bit consumed (R137, R141, R206, R207). -/
def Obligations.EndOfBlockAndReserved : Prop :=
  (∀ s : State, s.ready 1 → exec .eob s = .next (State.blockOver { s.took 1 with hc := Hc.zero })) ∧
  ∀ (x : BitVec 1) (s : State), s.ready 1 →
    exec (.llReserved x) s = .next (State.stopped { s.took 1 with hc := Hc.zero } 5 18) ∧
    exec (.dReserved x) s = .next (State.stopped { s.took 1 with hc := Hc.zero } 5 19)

/-- The 29 length symbols, each with the base length of R91 and of its own rule (R140, R147 to R175). -/
def Obligations.LengthSymbolsComplete : Prop :=
  lengthRow Instr.len257 257 3 ∧
  lengthRow Instr.len258 258 4 ∧
  lengthRow Instr.len259 259 5 ∧
  lengthRow Instr.len260 260 6 ∧
  lengthRow Instr.len261 261 7 ∧
  lengthRow Instr.len262 262 8 ∧
  lengthRow Instr.len263 263 9 ∧
  lengthRow Instr.len264 264 10 ∧
  lengthRow Instr.len265 265 11 ∧
  lengthRow Instr.len266 266 13 ∧
  lengthRow Instr.len267 267 15 ∧
  lengthRow Instr.len268 268 17 ∧
  lengthRow Instr.len269 269 19 ∧
  lengthRow Instr.len270 270 23 ∧
  lengthRow Instr.len271 271 27 ∧
  lengthRow Instr.len272 272 31 ∧
  lengthRow Instr.len273 273 35 ∧
  lengthRow Instr.len274 274 43 ∧
  lengthRow Instr.len275 275 51 ∧
  lengthRow Instr.len276 276 59 ∧
  lengthRow Instr.len277 277 67 ∧
  lengthRow Instr.len278 278 83 ∧
  lengthRow Instr.len279 279 99 ∧
  lengthRow Instr.len280 280 115 ∧
  lengthRow Instr.len281 281 131 ∧
  lengthRow Instr.len282 282 163 ∧
  lengthRow Instr.len283 283 195 ∧
  lengthRow Instr.len284 284 227 ∧
  lengthRow Instr.len285 285 258

/-- The 30 distance symbols, each with the base distance of R92 and of its own rule (R141, R142, R176 to R205). -/
def Obligations.DistanceSymbolsComplete : Prop :=
  distanceRow Instr.dist0 0 1 ∧
  distanceRow Instr.dist1 1 2 ∧
  distanceRow Instr.dist2 2 3 ∧
  distanceRow Instr.dist3 3 4 ∧
  distanceRow Instr.dist4 4 5 ∧
  distanceRow Instr.dist5 5 7 ∧
  distanceRow Instr.dist6 6 9 ∧
  distanceRow Instr.dist7 7 13 ∧
  distanceRow Instr.dist8 8 17 ∧
  distanceRow Instr.dist9 9 25 ∧
  distanceRow Instr.dist10 10 33 ∧
  distanceRow Instr.dist11 11 49 ∧
  distanceRow Instr.dist12 12 65 ∧
  distanceRow Instr.dist13 13 97 ∧
  distanceRow Instr.dist14 14 129 ∧
  distanceRow Instr.dist15 15 193 ∧
  distanceRow Instr.dist16 16 257 ∧
  distanceRow Instr.dist17 17 385 ∧
  distanceRow Instr.dist18 18 513 ∧
  distanceRow Instr.dist19 19 769 ∧
  distanceRow Instr.dist20 20 1025 ∧
  distanceRow Instr.dist21 21 1537 ∧
  distanceRow Instr.dist22 22 2049 ∧
  distanceRow Instr.dist23 23 3073 ∧
  distanceRow Instr.dist24 24 4097 ∧
  distanceRow Instr.dist25 25 6145 ∧
  distanceRow Instr.dist26 26 8193 ∧
  distanceRow Instr.dist27 27 12289 ∧
  distanceRow Instr.dist28 28 16385 ∧
  distanceRow Instr.dist29 29 24577

/-- The counts of a dynamic block; counts above 286 or 30 raise DYN_COUNTS, once all 14 bits are read (R94, R128). -/
def Obligations.DynamicCounts : Prop :=
  (∀ (v : BitVec 5) (s : State), s.ready 5 →
    exec (.dynHdr (.hlit v)) s =
      .next { s.took 5 with blk := { s.blk with nlen := BitVec.ofNat 9 (v.toNat + 257) }, sub := 1 }) ∧
  (∀ (v : BitVec 5) (s : State), s.ready 5 →
    exec (.dynHdr (.hdist v)) s =
      .next { s.took 5 with blk := { s.blk with ndist := BitVec.ofNat 6 (v.toNat + 1) }, sub := 2 }) ∧
  ∀ (v : BitVec 4) (s : State), s.ready 4 →
    let b := { s.blk with ncode := BitVec.ofNat 5 (v.toNat + 4) }
    (s.blk.nlen.toNat ≤ 286 → s.blk.ndist.toNat ≤ 30 →
      exec (.dynHdr (.hclen v)) s =
        .next
          (State.into { s.took 4 with blk := { b with clLens := List.replicate 19 0, lenIdx := 0 } } .dynCl)) ∧
    (286 < s.blk.nlen.toNat ∨ 30 < s.blk.ndist.toNat →
      exec (.dynHdr (.hclen v)) s = .next (State.stopped { s.took 4 with blk := b } 5 7))

/-- The code-length code: each length goes to the symbol CL_ORDER names and no other entry changes (R90, R129); the
build of CL_T leads to the code lengths where the set is complete, and fails with the table written where it is
over-subscribed or incomplete, whatever ALLOW is (R122, R123, R124, R129; log 18). -/
def Obligations.CodeLengthCode : Prop :=
  (∀ (v : BitVec 3) (s : State) (k : Nat),
     s.ready 3 → s.blk.lenIdx.toNat < 19 → clOrder[s.blk.lenIdx.toNat]? = some k → s.blk.clLens.length = 19 →
     ∃ ls : List (BitVec 3), ls.length = 19 ∧ ls[k]? = some v ∧ (∀ j, j ≠ k → ls[j]? = s.blk.clLens[j]?) ∧
       exec (.dynClen (.field v)) s =
         .next { s.took 3 with blk := { s.blk with clLens := ls, lenIdx := s.blk.lenIdx + 1 } }) ∧
  ∀ s : State, s.top = .running →
    let t := buildTable (s.blk.clLens.map fun x => x.setWidth 4)
    let u : State := { s.took 0 with tabs := { s.tabs with cl := t } }
    (t.left = some 0 →
      exec (.dynClen .build) s = .next (State.into { u with blk := { s.blk with lenIdx := 0 } } .dynLens)) ∧
    (t.left = none → exec (.dynClen .build) s = .next (u.stopped 5 8)) ∧
    (∀ n, t.left = some (n + 1) → exec (.dynClen .build) s = .next (u.stopped 5 9))

/-- The code of a code-length symbol: a length is written at LEN_IDX, a repeat symbol waits for its extra bits, and 16
with no previous length raises REP_NO_PREV before its extra bits are read (R130, R131). -/
def Obligations.CodeLengthSymbols : Prop :=
  ∀ s : State, s.ready 1 →
    let u : State := { s.took 1 with hc := Hc.zero }
    (∀ l : BitVec 4, s.blk.lenIdx.toNat < s.blk.nlen.toNat + s.blk.ndist.toNat →
      let v : State :=
        { u with blk := { s.blk with lens := s.blk.lens.set s.blk.lenIdx.toNat l, lenIdx := s.blk.lenIdx + 1 } }
      exec (.clLen l) s =
        .next
          (if s.blk.lenIdx.toNat + 1 = s.blk.nlen.toNat + s.blk.ndist.toNat then v.into .dynBuild else v)) ∧
    (s.blk.lenIdx = 0 → exec (.clRep16 .code) s = .next (u.stopped 5 10)) ∧
    (s.blk.lenIdx ≠ 0 → exec (.clRep16 .code) s = .next { u with blk := { s.blk with clSym := 16 } }) ∧
    exec (.clZero17 .code) s = .next { u with blk := { s.blk with clSym := 17 } } ∧
    exec (.clZero18 .code) s = .next { u with blk := { s.blk with clSym := 18 } }

/-- The repeats: 3 + extra of the previous length, 3 + extra zeros, 11 + extra zeros, written from LEN_IDX on and
nowhere else; a repeat past the last length raises REP_OVERFLOW and writes none (R89, R132, R133, R134). -/
def Obligations.CodeLengthRepeats : Prop :=
  ∀ (i : Instr) (k r : Nat) (v : BitVec 4) (s : State),
    s.ready k →
    ((∃ e : BitVec 2, i = .clRep16 (.extra e) ∧ k = 2 ∧ r = 3 + e.toNat ∧ 1 ≤ s.blk.lenIdx.toNat ∧
        s.blk.lens[s.blk.lenIdx.toNat - 1]? = some v) ∨
      (∃ e : BitVec 3, i = .clZero17 (.extra e) ∧ k = 3 ∧ r = 3 + e.toNat ∧ v = 0) ∨
      ∃ e : BitVec 7, i = .clZero18 (.extra e) ∧ k = 7 ∧ r = 11 + e.toNat ∧ v = 0) →
    (s.blk.nlen.toNat + s.blk.ndist.toNat < s.blk.lenIdx.toNat + r →
      exec i s = .next ((s.took k).stopped 5 11)) ∧
    (s.blk.lenIdx.toNat + r ≤ s.blk.nlen.toNat + s.blk.ndist.toNat →
      s.blk.nlen.toNat + s.blk.ndist.toNat ≤ 316 → s.blk.lens.length = 320 →
      ∃ ls : List (BitVec 4), ls.length = 320 ∧
        (∀ j, s.blk.lenIdx.toNat ≤ j → j < s.blk.lenIdx.toNat + r → ls[j]? = some v) ∧
        (∀ j, j < s.blk.lenIdx.toNat ∨ s.blk.lenIdx.toNat + r ≤ j → ls[j]? = s.blk.lens[j]?) ∧
        let t : State :=
          { s.took k with
            blk := { s.blk with lens := ls, lenIdx := BitVec.ofNat 9 (s.blk.lenIdx.toNat + r), clSym := 0 } }
        exec i s =
          .next
            (if s.blk.lenIdx.toNat + r = s.blk.nlen.toNat + s.blk.ndist.toNat then t.into .dynBuild else t))

/-- DYN_BUILD: with sets that pass, LL_T from the first NLEN lengths and D_T from the next NDIST, with the flag of
R124 where ALLOW accepts an incomplete distance set; otherwise its errors in their order, the tables built so far
written (R122, R123, R124, R135, R216; log 18). -/
def Obligations.DynamicBuild : Prop :=
  (∀ (s : State) (d : Table), s.top = .running → s.blk.lens.getD 256 0 ≠ 0 →
     let l := buildTable (s.blk.lens.take s.blk.nlen.toNat)
     let d0 := buildTable ((s.blk.lens.drop s.blk.nlen.toNat).take s.blk.ndist.toNat)
     l.left = some 0 →
     (d0.left = some 0 ∧ d = d0 ∨
       s.ctl.allow = true ∧ d0.syms = [] ∧ d = { d0 with empty := true } ∨
       s.ctl.allow = true ∧ d0.syms.length = 1 ∧ d0.countOf 1 = 1 ∧ d = { d0 with single := true }) →
     exec .dynBuild s = .next (State.into { s.took 0 with tabs := { s.tabs with ll := l, d := d } } .sym)) ∧
  ∀ s : State, s.top = .running →
    let l := buildTable (s.blk.lens.take s.blk.nlen.toNat)
    let d := buildTable ((s.blk.lens.drop s.blk.nlen.toNat).take s.blk.ndist.toNat)
    let u : State := { s.took 0 with tabs := { s.tabs with ll := l } }
    let w : State := { s.took 0 with tabs := { s.tabs with ll := l, d := d } }
    (s.blk.lens.getD 256 0 = 0 → exec .dynBuild s = .next ((s.took 0).stopped 5 12)) ∧
    (s.blk.lens.getD 256 0 ≠ 0 →
      (l.left = none → exec .dynBuild s = .next (u.stopped 5 13)) ∧
      (∀ n, l.left = some (n + 1) → exec .dynBuild s = .next (u.stopped 5 14)) ∧
      (l.left = some 0 →
        (d.left = none → exec .dynBuild s = .next (w.stopped 5 15)) ∧
        (∀ n, d.left = some (n + 1) →
          (s.ctl.allow = false ∨ d.syms ≠ [] ∧ ¬ (d.syms.length = 1 ∧ d.countOf 1 = 1)) →
          exec .dynBuild s = .next (w.stopped 5 16))))

/-- A trailer byte, most significant first; the fourth ends the stream, in DONE where the value is the Adler-32 of the
output and with ADLER_MISMATCH where it is not (R94, R116). -/
def Obligations.TrailerByte : Prop :=
  ∀ (b : Byte) (s : State), s.ready 8 → s.zl.trailerN.toNat < 4 →
    ∃ v : Word, v.toNat = (256 * s.zl.trailerVal.toNat + b.toNat) % 2 ^ 32 ∧
      let t : State := { s.took 8 with zl := { s.zl with trailerVal := v, trailerN := s.zl.trailerN + 1 } }
      exec (.trailer b) s =
        .next
          (if s.zl.trailerN.toNat < 3 then t
          else if v.toNat = 65536 * s.out.s2.toNat + s.out.s1.toNat then { t with top := .done }
          else t.stopped 4 22)

/-! ## The host's commands -/

/-- START and ABORT, in every state: the state clear of R101, the latches of R44 and STATE; CONFIG, OUT_LIMIT, the
window's cells, the arrays, the tables and the CRC unit stay (R101, R102, R104). -/
def Obligations.StartAndAbort : Prop :=
  ∀ s : State,
    let t : State :=
      { s with
        phase := .zhdr, sub := 0, eoiSeen := false, inDrop := false, heldIn := false, heldOut := false
        err := { kind := 0, cause := 0, bits := 0, byte := 0 }
        inp := { fifo := [], buf := 0, cnt := 0, count := 0 }
        out := { fifo := [], count := 0, win := s.out.win, wp := 0, hist := 0, s1 := 1, s2 := 0 }
        zl := { cmf := 0, flg := 0, trailerVal := 0, trailerN := 0 }
        blk :=
          { bfinal := false, btype := 0, storedRem := 0, nlen := 0, ndist := 0, ncode := 0, lenIdx := 0, clSym := 0
            clLens := s.blk.clLens, lens := s.blk.lens }
        hc := { code := 0, first := 0, index := 0, len := 0 }
        copy := { len := 0, dist := 0, pendLen := 0, lSym := 0, dSym := 0, litByte := 0 } }
    exec .start s =
      .next
        { t with
          top := .running
          ctl :=
            { config := s.ctl.config, outLimit := s.ctl.outLimit, allow := s.ctl.config.getLsbD 1
              lim := s.ctl.outLimit } } ∧
    exec .abort s = .next { t with top := .idle }

/-- EOI writes EOI_SEEN while RUNNING and changes nothing otherwise (R103); PUSH in its four cases, in the order of
R105; and the three plain register writes: CONFIG keeps its two defined bits, OUT_LIMIT and CRC_EXPECT all 32 (R107). -/
def Obligations.EoiPushAndRegisterWrites : Prop :=
  (∀ s : State,
     (s.top = .running → exec .eoi s = .next { s with eoiSeen := true }) ∧
     (s.top ≠ .running → exec .eoi s = .next s)) ∧
  (∀ (b : Byte) (s : State),
     (s.top ≠ .running → exec (.push b) s = .next { s with inDrop := true }) ∧
     (s.top = .running → s.eoiSeen = true → exec (.push b) s = .next (s.stopped 8 26)) ∧
     (s.top = .running → s.eoiSeen = false → s.inp.fifo.length = s.cfg.inDepth →
       exec (.push b) s = .next (s.stopped 8 25)) ∧
     (s.top = .running → s.eoiSeen = false → s.inp.fifo.length ≠ s.cfg.inDepth →
       exec (.push b) s = .next { s with inp := { s.inp with fifo := s.inp.fifo ++ [b] } })) ∧
  ∀ (v : Word) (s : State),
    (∃ c : BitVec 2, c.toNat = v.toNat % 4 ∧
      exec (.wrConfig v) s = .next { s with ctl := { s.ctl with config := c } }) ∧
    exec (.wrOutLimit v) s = .next { s with ctl := { s.ctl with outLimit := v } } ∧
    exec (.wrCrcExpect v) s = .next { s with crc := { s.crc with expect := v } }

/-- The host's reads (R31, R106, R108, R210, R211; `rdata` is log 8): POP returns VALID with the oldest byte and
removes it, and 0 where there is none; a read of any register that RD_REG reads returns the value 10_state.md gives
it, of CRC_VALUE the finished CRC, and of CRC_STATUS the match computed at the read, and none of them changes anything
else. -/
def Obligations.HostReads : Prop :=
  (∀ s : State,
    (∀ b rest, s.out.fifo = b :: rest →
      ∃ v : Word, v.toNat = 256 + b.toNat ∧
        exec .pop s = .next { s with out := { s.out with fifo := rest }, rdata := v }) ∧
    (s.out.fifo = [] → exec .pop s = .next { s with rdata := 0 })) ∧
  (∀ s : State,
    exec .rdCrcValue s = .next { s with rdata := ~~~ s.crc.reg } ∧
    exec .rdCrcStatus s = .next { s with rdata := if ~~~ s.crc.reg = s.crc.expect then 1 else 0 }) ∧
  ∀ (k : BitVec 5) (s : State),
    ∃ v : Word, exec (.rdReg k) s = .next { s with rdata := v } ∧
      (k = 1 → v.toNat = s.ctl.config.toNat) ∧
      (k = 2 → v = s.status) ∧
      (k = 3 → v.toNat = s.err.kind.toNat + 256 * s.err.cause.toNat + 65536 * s.err.bits.toNat) ∧
      (k = 4 → v = s.err.byte) ∧ (k = 5 → v = s.inp.count) ∧ (k = 6 → v = s.out.count) ∧
      (k = 7 → v = s.ctl.outLimit) ∧
      (k = 10 → v.toNat = 65536 * s.out.s2.toNat + s.out.s1.toNat) ∧
      (k = 11 → v.toNat = s.blk.bfinal.toNat + 2 * s.blk.btype.toNat) ∧
      (k = 12 → s.inp.fifo.length ≤ 65535 → s.out.fifo.length ≤ 65535 →
        v.toNat = s.inp.fifo.length + 65536 * s.out.fifo.length) ∧
      (k = 13 → v.toNat = s.zl.cmf.toNat + 256 * s.zl.flg.toNat) ∧
      (k = 14 → v = if s.zl.trailerN = 4 then s.zl.trailerVal else 0) ∧
      (k = 19 → v = s.crc.expect) ∧ (k = 21 → v = s.crc.count) ∧
      (k = 0 ∨ k = 8 ∨ k = 15 ∨ k = 16 ∨ k = 17 ∨ 22 ≤ k.toNat → v = 0)

/-- The fields of STATUS, bit by bit, its reserved bits, and its value after reset (R26), with the codes of STATE (R20) and
of PHASE (R21); and a write to any register but CTRL, CONFIG, OUT_LIMIT, IN_DATA, CRC_CTRL, CRC_DATA and CRC_EXPECT, so to
every read-only or reserved one, leaves everything but the turn (R43,
R108; the turn is log 1). -/
def Obligations.StatusFields : Prop :=
  (∀ s : State,
    s.status.extractLsb' 0 2 = BitVec.ofNat 2 s.top.code ∧
    s.status.getLsbD 2 = s.eoiSeen ∧ s.status.getLsbD 3 = s.inDrop ∧
    s.status.getLsbD 4 = decide (s.inp.fifo.length = s.cfg.inDepth) ∧
    s.status.getLsbD 5 = decide (s.out.fifo = []) ∧
    s.status.getLsbD 6 = (s.ctl.config.getLsbD 0 && decide (s.top = .done ∨ s.top = .failed)) ∧
    s.status.getLsbD 7 = s.heldIn ∧ s.status.getLsbD 8 = s.heldOut ∧
    s.status.extractLsb' 9 7 = 0 ∧ s.status.extractLsb' 16 5 = BitVec.ofNat 5 s.phase.code ∧
    s.status.extractLsb' 21 11 = 0) ∧
  ([Top.idle, .running, .done, .failed].map Top.code = [0, 1, 2, 3] ∧
   [Phase.zhdr, .bhdr, .storedHdr, .storedCopy, .dynHdr, .dynCl, .dynLens, .dynBuild, .sym, .lextra, .dist, .dextra,
    .copy, .trailer, .lit].map Phase.code = [0, 1, 2, 3, 4, 5, 6, 7, 8, 9, 10, 11, 12, 13, 14]) ∧
  (∀ cfg : Config, cfg.wf = true → (State.resetWith cfg).status = 0x20) ∧
  ∀ (s : State) (k : Nat) (v : Word) (rest : List Turn),
    k < 32 → k ∉ [0, 1, 7, 8, 16, 17, 19] →
    s.agenda = .host (.write (s.cfg.blockBase + 4 * k) 4 v) :: rest → step s = .next { s with agenda := rest }

/-! ## The CRC unit -/

/-- INIT, and a byte with its eight rounds written out; CRC_COUNT saturates, and the 256-entry table form gives the
same register (R208, R209). -/
def Obligations.CrcInitAndByte : Prop :=
  ∀ (b : Byte) (s : State),
    exec .crcInit s = .next { s with crc := { reg := 0xFFFFFFFF, expect := s.crc.expect, count := 0 } } ∧
    (∃ r n : Word,
      r = Nat.repeat (fun c : Word => if c.getLsbD 0 then (c >>> 1) ^^^ 0xEDB88320 else c >>> 1) 8
        (s.crc.reg ^^^ b.setWidth 32) ∧
      n.toNat = min (s.crc.count.toNat + 1) 0xFFFFFFFF ∧
      exec (.crcByte b) s = .next { s with crc := { reg := r, expect := s.crc.expect, count := n } }) ∧
    ∀ c : Word, crcUpdate c b = crcRounds 8 ((c ^^^ b.setWidth 32) &&& 0xFF) ^^^ (c >>> 8)

/-- The CRC update is linear: a sequence from any start is the sequence from 0 and zeros from that start, combined;
and bytes fed one after another are their concatenation (R212). -/
def Obligations.CrcLinearity : Prop :=
  (∀ (m : List Byte) (r : Word), crcFeed r m = crcFeed 0 m ^^^ crcFeed r (List.replicate m.length 0)) ∧
  ∀ (m n : List Byte) (r : Word), crcFeed r (m ++ n) = crcFeed (crcFeed r m) n

/-- Feeding the finished CRC of any bytes, least significant byte first, leaves the residue (R212). -/
def Obligations.CrcResidue : Prop :=
  ∀ m : List Byte,
    let v : Word := ~~~ crcFeed 0xFFFFFFFF m
    ~~~ crcFeed 0xFFFFFFFF
        (m ++ [v.setWidth 8, (v >>> 8).setWidth 8, (v >>> 16).setWidth 8, (v >>> 24).setWidth 8]) = 0x2144DF1C

/-! ## Laws of the output -/

/-- The Adler-32 sums of the bytes emitted since START are the ones of R115. -/
def Obligations.AdlerLaw : Prop :=
  ∀ (bs : List Byte) (o : Output), o.s1 = 1 → o.s2 = 0 →
    let o' := bs.foldl Output.emitted o
    o'.s1.toNat = (1 + (bs.map BitVec.toNat).sum) % 65521 ∧
    o'.s2.toNat =
      (bs.length + ((List.range bs.length).map fun i => (bs.length - i) * (bs.getD i 0).toNat).sum) % 65521

/-- The window law: START leaves the history empty, and each INF step either emits one byte, which joins the history
and the FIFO, or leaves the output side as it is; so the cell of distance d holds the d-th most recent byte (R58, R67,
R68, R145). -/
def Obligations.WindowHoldsHistory : Prop :=
  (∀ s t : State, exec .start s = .next t → t.out.holds []) ∧
  ∀ (s t : State) (bs : List Byte), s.out.holds bs → infStep s = .next t →
    t.out = s.out ∨ ∃ b, t.out.fifo = s.out.fifo ++ [b] ∧ t.out.holds (bs ++ [b])

/-- The overlap law: with OUT_FIFO space and no limit in the way, a copy of L bytes at distance D emits, at its k-th
byte, the byte D before it, its own bytes included (R78, R144). -/
def Obligations.OverlappingCopy : Prop :=
  ∀ (s : State) (bs : List Byte) (L D : Nat),
    s.top = .running → s.phase = .copy → s.agenda = [] → s.copy.len.toNat = L → s.copy.dist.toNat = D →
    1 ≤ L → 1 ≤ D → D ≤ bs.length → D ≤ 32768 → s.out.holds bs →
    s.out.fifo.length + L ≤ s.cfg.outDepth → bs.length + L < 2 ^ 32 → s.ctl.lim = 0 →
    ∃ (t : State) (cs : List Byte), Host.Core.run Sys2Proof.core L s = .next t ∧ t.phase = .sym ∧ t.top = .running ∧
      cs.length = L ∧ t.out.fifo = s.out.fifo ++ cs ∧ t.out.holds (bs ++ cs) ∧
      ∀ k, k < L → (bs ++ cs)[bs.length + k]? = (bs ++ cs)[bs.length + k - D]?

/-! ## Order -/

/-- INF consumes the input bits in stream order: after its turn the unread bits are those before it less as many from
the front as BITPOS moved on, and BITPOS never moves back (R19, R59, R61, R62, R63). -/
def Obligations.InfReadsInOrder : Prop :=
  ∀ s t : State, s.ReaderInv → infStep s = .next t →
    s.bitpos ≤ t.bitpos ∧ t.unread = s.unread.drop (t.bitpos - s.bitpos)

/-- A host access commutes with an INF step that is not held: a push that is accepted, EOI, and a pop of a byte (R75,
R110, R218). -/
def Obligations.HostAndInfCommute : Prop :=
  ∀ (s t u : State), s.top = .running → s.held = false → infStep s = .next t → t.top = .running →
    (∀ b, s.eoiSeen = false → s.inp.fifo.length < s.cfg.inDepth → exec (.push b) s = .next u →
      ∃ w, infStep u = .next w ∧ exec (.push b) t = .next w) ∧
    (exec .eoi s = .next u → ∃ w, infStep u = .next w ∧ exec .eoi t = .next w) ∧
    (s.out.fifo ≠ [] → exec .pop s = .next u → ∃ w, infStep u = .next w ∧ exec .pop t = .next w)

/-- Every INF step of a stream that is not held takes an input byte, consumes a bit, emits a byte or ends the stream in
FAILED (as a decode with an EMPTY table does), but for the steps R146 names: a LEXTRA or DEXTRA step with 0 extra bits,
the build step of DYN_CL and the DYN_BUILD step, which read no bits and leave their phase. -/
def Obligations.InfStepProgresses : Prop :=
  ∀ s t : State, s.Inv → s.top = .running → s.held = false → infStep s = .next t →
    t.inp.count = s.inp.count + 1 ∧ t.inp.fifo.length + 1 = s.inp.fifo.length ∨
    t.inp.cnt.toNat < s.inp.cnt.toNat ∧ t.inp.count = s.inp.count ∨
    t.out.count = s.out.count + 1 ∧ t.out.fifo.length = s.out.fifo.length + 1 ∨
    t.top = .failed ∨
    (∃ c, s.ctx = some c ∧ c.need = 0) ∧
      (s.phase = .lextra ∨ s.phase = .dextra ∨ s.phase = .dynCl ∨ s.phase = .dynBuild) ∧ t.phase ≠ s.phase

/-- A stream of N input bytes ends or holds within N + 8N(2 + 258) + 2 INF steps of its START, whatever the bytes and
whether or not EOI is given (R146). -/
def Obligations.StreamEndsOrHolds : Prop :=
  ∀ (s : State), s.Inv → s.top = .running → s.agenda = [] → s.phase = .zhdr → s.inp.cnt = 0 →
    let n := s.inp.fifo.length
    ∃ k t, k ≤ n + 8 * n * (2 + 258) + 2 ∧ Host.Core.run Sys2Proof.core k s = .next t ∧
      (t.top ≠ .running ∨ t.held = true)

/-! ## Invariants -/

/-- Every step keeps the bit reader's form: at most 23 bits, none above BITCNT, at most 7 at the boundary of a field
read (R46). -/
def Obligations.StepKeepsReader : Prop :=
  ∀ s t : State, s.ReaderInv → step s = .next t → t.ReaderInv

/-- Every step keeps the FIFOs within their depths (R45), both Adler-32 sums below 65521 (R54), and the error
registers at 0 outside FAILED and at one of the 26 causes with its kind in it (R27, R213). -/
def Obligations.StepKeepsFifosSumsErrors : Prop :=
  (∀ s t : State, step s = .next t → (s.FifoInv → t.FifoInv) ∧ (s.AdlerInv → t.AdlerInv)) ∧
  ∀ s t : State, s.ReaderInv → s.ErrInv → step s = .next t → t.ErrInv

/-- Every step keeps the whole invariant: tables formed before a symbol is read with them, and complete, but for a D_T that
is EMPTY or SINGLE, which needs ALLOW = 1; decode progress inside its table; and the registers of each phase in their
ranges (R48, R51, R52, R58, R126). -/
def Obligations.StepKeepsInv : Prop :=
  ∀ s t : State, s.Inv → step s = .next t → t.Inv

/-- The state after reset meets every invariant. -/
def Obligations.ResetMeetsInvariants : Prop :=
  State.reset.Inv ∧ State.reset.FifoInv ∧ State.reset.AdlerInv ∧ State.reset.ErrInv

/-- No step of a state that meets the invariant faults: no rule reads a cell or an entry that was not written (R58). -/
def Obligations.NoFaultUnderInv : Prop :=
  ∀ (s : State) (f : Fault), s.Inv → step s ≠ .fault f

/-! ## Rules about the whole machine -/

/-- The transitions of STATE, and what causes each (R20). -/
def Obligations.StateTransitions : Prop :=
  ∀ s t : State, step s = .next t →
    t.top = s.top ∨
    (t.top = .running ∧ ∃ v rest, s.agenda = .host (.write s.cfg.blockBase 4 v) :: rest ∧ v.getLsbD 0 = true) ∨
    (t.top = .idle ∧ ∃ v rest, s.agenda = .host (.write s.cfg.blockBase 4 v) :: rest ∧ v.getLsbD 2 = true) ∨
    (t.top = .idle ∧ ∃ rest, s.agenda = .reset :: rest) ∨
    (s.top = .running ∧ t.top = .done ∧ s.phase = .trailer ∧ t.zl.trailerN = 4 ∧ t.zl.trailerVal = t.adler) ∨
    (s.top = .running ∧ t.top = .failed)

/-- Error entry: the registers of R214 are written from the failing step's own bit cursor, PHASE stays, and of everything
else only the writes its pseudocode makes before the Fail stand: bits consumed and the hold flags; FLG in ZHDR and the
trailer registers in TRAILER; BFINAL and BTYPE in BHDR and NCODE in DYN_HDR; the tables in DYN_CL and DYN_BUILD (log 18);
and the HC registers in a phase that decodes (log 18). -/
def Obligations.ErrorEntryIsPrecise : Prop :=
  ∀ s t : State, step s = .next t → s.top = .running → t.top = .failed →
    t.err.bits = t.inp.cnt ∧ t.err.byte = t.inp.count ∧
    (∃ c : ErrCause, t.err.kind.toNat = c.kind.code ∧ t.err.cause.toNat = c.code) ∧
    t =
      { s with
        agenda := t.agenda
        top := .failed
        err := t.err
        heldIn := t.heldIn
        heldOut := t.heldOut
        inp := { s.inp with buf := t.inp.buf, cnt := t.inp.cnt }
        zl := { s.zl with flg := t.zl.flg, trailerVal := t.zl.trailerVal, trailerN := t.zl.trailerN }
        blk := { s.blk with bfinal := t.blk.bfinal, btype := t.blk.btype, ncode := t.blk.ncode }
        tabs := t.tabs
        hc := t.hc } ∧
    t.inp.cnt.toNat ≤ s.inp.cnt.toNat ∧
    (s.phase ≠ .zhdr → t.zl.flg = s.zl.flg) ∧
    (s.phase ≠ .trailer → t.zl.trailerVal = s.zl.trailerVal ∧ t.zl.trailerN = s.zl.trailerN) ∧
    (s.phase ≠ .bhdr → t.blk.bfinal = s.blk.bfinal ∧ t.blk.btype = s.blk.btype) ∧
    (s.phase ≠ .dynHdr → t.blk.ncode = s.blk.ncode) ∧
    (s.phase ≠ .dynCl → s.phase ≠ .dynBuild → t.tabs = s.tabs) ∧
    (s.phase ≠ .dynLens → s.phase ≠ .sym → s.phase ≠ .dist → t.hc = s.hc)

/-- A stream that is not RUNNING: INF's turn changes nothing but the turn, and no host access but a START or an ABORT
changes STATE or the error registers (R215, R226). -/
def Obligations.EndedStreamStays : Prop :=
  ∀ s : State, s.top ≠ .running →
    (∀ rest, s.agenda = .inf :: rest → step s = .next { s with agenda := rest }) ∧
    ∀ a rest t, s.agenda = .host a :: rest → step s = .next t →
      (∀ v, a = .write s.cfg.blockBase 4 v → v.getLsbD 0 = false ∧ v.getLsbD 2 = false) →
      t.top = s.top ∧ t.err = s.err

/-- A held INF: its turn writes the hold flag and nothing else, and raises nothing; a turn that is not held clears
both flags (R22, R218). -/
def Obligations.HoldsOnlyWait : Prop :=
  ∀ s : State, s.top = .running →
    (s.holdIn = true → infStep s = .next { s with heldIn := true }) ∧
    (s.holdOut = true → infStep s = .next { s with heldOut := true }) ∧
    ∀ t, s.held = false → infStep s = .next t → t.heldIn = false ∧ t.heldOut = false

/-- INF and the CRC unit share no state: INF's turn neither changes nor reads the CRC unit, and a CRC command changes
only the CRC unit and the value read (R2, R212). -/
def Obligations.UnitsShareNothing : Prop :=
  (∀ (s t : State) (c : Crc), infStep s = .next t →
    t.crc = s.crc ∧ infStep { s with crc := c } = .next { t with crc := c }) ∧
  ∀ (i : Instr) (s t : State) (b : Byte) (v : Word), i ∈ [.crcInit, .crcByte b, .rdCrcValue, .rdCrcStatus, .wrCrcExpect v] →
    exec i s = .next t → t = { s with crc := t.crc, rdata := t.rdata }

/-- ALLOW and LIM are written by START alone, from CONFIG and OUT_LIMIT, and reset leaves both 0 (R44, R231). -/
def Obligations.LatchesChangeOnlyAtStart : Prop :=
  ∀ s t : State, step s = .next t →
    let starts := ∃ v rest, s.agenda = .host (.write s.cfg.blockBase 4 v) :: rest ∧ v.getLsbD 0 = true
    let resets := ∃ rest, s.agenda = .reset :: rest
    (starts → t.ctl.allow = s.ctl.config.getLsbD 1 ∧ t.ctl.lim = s.ctl.outLimit) ∧
    (resets → t.ctl.allow = false ∧ t.ctl.lim = 0) ∧
    (¬ starts → ¬ resets → t.ctl.allow = s.ctl.allow ∧ t.ctl.lim = s.ctl.lim)

/-- The window is INF's own: no host access changes a cell, and INF's turn changes at most the cell WP names (R66). -/
def Obligations.WindowIsPrivate : Prop :=
  (∀ (s t : State) (a : Access) (rest : List Turn), s.agenda = .host a :: rest → step s = .next t →
    t.out.win = s.out.win) ∧
  ∀ (s t : State) (a : Nat), infStep s = .next t → a ≠ s.out.wp.toNat →
    Memory.read t.out.win a = Memory.read s.out.win a

/-- A host read changes only the value it returns, unless it is the read of OUT_DATA, which pops (R31, R74). -/
def Obligations.ReadsHaveNoSideEffect : Prop :=
  ∀ (s t : State) (addr width : Nat) (rest : List Turn),
    s.agenda = .host (.read addr width) :: rest → step s = .next t →
    (addr ≠ s.cfg.blockBase + 0x24 → t = { s with agenda := rest, rdata := t.rdata }) ∧
    (addr = s.cfg.blockBase + 0x24 →
      t = { s with agenda := rest, rdata := t.rdata, out := { s.out with fifo := s.out.fifo.drop 1 } })

/-- The frame of every row that emits nothing: the output side, the latches and the host's registers stay, but for
what START, ABORT, POP and the three register writes say. -/
def Obligations.NonEmittingFrame : Prop :=
  ∀ (i : Instr) (s t : State), exec i s = .next t →
    (∀ b, i ≠ .storedByte b) → i ≠ .lit .emit → (∀ l d, i ≠ .matchCopy l d) →
    (∀ a, Memory.read t.out.win a = Memory.read s.out.win a) ∧
    (i ≠ .start → i ≠ .abort → i ≠ .pop → t.out = s.out) ∧
    (i ≠ .start → (∀ v, i ≠ .wrConfig v) → (∀ v, i ≠ .wrOutLimit v) → t.ctl = s.ctl) ∧
    ((∀ b, i ≠ .crcByte b) → i ≠ .crcInit → (∀ v, i ≠ .wrCrcExpect v) → t.crc = s.crc) ∧
    t.cfg = s.cfg ∧ t.agenda = s.agenda

/-- Phases that read aligned fields start with BITCNT = 0 (R63, R64). -/
def Obligations.AlignedPhasesStartAligned : Prop :=
  ∀ s t : State, s.ReaderInv → infStep s = .next t → t.phase ≠ s.phase →
    (t.phase = .storedHdr ∨ t.phase = .trailer) → t.inp.cnt = 0 ∧ t.inp.buf = 0

/-- The interrupt line: CONFIG.IRQ_EN with STATE DONE or FAILED, as STATUS.IRQ reads it; a START, an ABORT, a reset or
a write of IRQ_EN = 0 leaves it 0 (R219). -/
def Obligations.InterruptLine : Prop :=
  (∀ s : State,
    (s.irq = true ↔ s.ctl.config.getLsbD 0 = true ∧ (s.top = .done ∨ s.top = .failed)) ∧
    s.status.getLsbD 6 = s.irq) ∧
  (∀ (s t : State) (v : Word), v.getLsbD 0 = false →
    exec .start s = .next t ∨ exec .abort s = .next t ∨ exec (.wrConfig v) s = .next t → t.irq = false) ∧
  ∀ cfg : Config, (State.resetWith cfg).irq = false

/-- The register views after reset, from any state by the platform's reset input: STATUS 0x20, ADLER 1, CRC_STATUS 1
(as R41 says against the flag table of R22: log 21) and 0 for every other register, with the FIFO depths in the range R7
gives them (R227). -/
def Obligations.ResetViews : Prop :=
  ∀ (s : State) (rest : List Turn), s.agenda = .reset :: rest → s.cfg.wf = true →
    ∃ t, step s = .next t ∧ t.top = .idle ∧ t.out.s1 = 1 ∧ t.crc.reg = 0xFFFFFFFF ∧ t.inp.fifo = [] ∧ t.out.fifo = [] ∧
      t.readReg 2 = 0x20 ∧ t.readReg 10 = 1 ∧ t.readReg 20 = 1 ∧
      ∀ k, k < 32 → k ≠ 2 → k ≠ 10 → k ≠ 20 → t.readReg k = 0

/-- Instances share nothing: a step of one leaves every other as it is and does not depend on them (R224). -/
def Obligations.InstancesIndependent : Prop :=
  ∀ (sys sys' : List State) (k j : Nat), systemStep k sys = some sys' →
    (j ≠ k → sys'[j]? = sys[j]?) ∧
    ∀ other : List State, other[k]? = sys[k]? → ∃ o', systemStep k other = some o' ∧ o'[k]? = sys'[k]?
end

