-- ==== Sys2Proof/Laws/Dispatch.lean ====
section
/-! SUPPORT. The meaning each row is dispatched to: one lemma a row, true by definition. -/

namespace Sys2Proof.Machine

@[simp] theorem exec_zhdrCmf (cmf : Byte) (s : State) : exec (.zhdrCmf cmf) s = execZhdrCmf cmf s := rfl
@[simp] theorem exec_zhdrFlg (flg : Byte) (s : State) : exec (.zhdrFlg flg) s = execZhdrFlg flg s := rfl
@[simp] theorem exec_blockStored (bfinal : Bool) (s : State) : exec (.blockStored bfinal) s = execBlockStored bfinal s := rfl
@[simp] theorem exec_blockFixed (bfinal : Bool) (s : State) : exec (.blockFixed bfinal) s = execBlockFixed bfinal s := rfl
@[simp] theorem exec_blockDynamic (bfinal : Bool) (s : State) : exec (.blockDynamic bfinal) s = execBlockDynamic bfinal s := rfl
@[simp] theorem exec_blockReserved (bfinal : Bool) (s : State) : exec (.blockReserved bfinal) s = execBlockReserved bfinal s := rfl
@[simp] theorem exec_storedHdr (f : StoredField) (s : State) : exec (.storedHdr f) s = execStoredHdr f s := rfl
@[simp] theorem exec_storedByte (b : Byte) (s : State) : exec (.storedByte b) s = execStoredByte b s := rfl
@[simp] theorem exec_dynHdr (f : DynField) (s : State) : exec (.dynHdr f) s = execDynHdr f s := rfl
@[simp] theorem exec_dynClen (f : ClenStep) (s : State) : exec (.dynClen f) s = execDynClen f s := rfl
@[simp] theorem exec_clLen (l : BitVec 4) (s : State) : exec (.clLen l) s = execClLen l s := rfl
@[simp] theorem exec_clRep16 (f : SymStep 2) (s : State) : exec (.clRep16 f) s = execClRep16 f s := rfl
@[simp] theorem exec_clZero17 (f : SymStep 3) (s : State) : exec (.clZero17 f) s = execClZero17 f s := rfl
@[simp] theorem exec_clZero18 (f : SymStep 7) (s : State) : exec (.clZero18 f) s = execClZero18 f s := rfl
@[simp] theorem exec_dynBuild (s : State) : exec .dynBuild s = execDynBuild s := rfl
@[simp] theorem exec_lit (f : LitStep) (s : State) : exec (.lit f) s = execLit f s := rfl
@[simp] theorem exec_eob (s : State) : exec .eob s = execEob s := rfl
@[simp] theorem exec_len257 (f : SymStep 0) (s : State) : exec (.len257 f) s = execLen257 f s := rfl
@[simp] theorem exec_len258 (f : SymStep 0) (s : State) : exec (.len258 f) s = execLen258 f s := rfl
@[simp] theorem exec_len259 (f : SymStep 0) (s : State) : exec (.len259 f) s = execLen259 f s := rfl
@[simp] theorem exec_len260 (f : SymStep 0) (s : State) : exec (.len260 f) s = execLen260 f s := rfl
@[simp] theorem exec_len261 (f : SymStep 0) (s : State) : exec (.len261 f) s = execLen261 f s := rfl
@[simp] theorem exec_len262 (f : SymStep 0) (s : State) : exec (.len262 f) s = execLen262 f s := rfl
@[simp] theorem exec_len263 (f : SymStep 0) (s : State) : exec (.len263 f) s = execLen263 f s := rfl
@[simp] theorem exec_len264 (f : SymStep 0) (s : State) : exec (.len264 f) s = execLen264 f s := rfl
@[simp] theorem exec_len265 (f : SymStep 1) (s : State) : exec (.len265 f) s = execLen265 f s := rfl
@[simp] theorem exec_len266 (f : SymStep 1) (s : State) : exec (.len266 f) s = execLen266 f s := rfl
@[simp] theorem exec_len267 (f : SymStep 1) (s : State) : exec (.len267 f) s = execLen267 f s := rfl
@[simp] theorem exec_len268 (f : SymStep 1) (s : State) : exec (.len268 f) s = execLen268 f s := rfl
@[simp] theorem exec_len269 (f : SymStep 2) (s : State) : exec (.len269 f) s = execLen269 f s := rfl
@[simp] theorem exec_len270 (f : SymStep 2) (s : State) : exec (.len270 f) s = execLen270 f s := rfl
@[simp] theorem exec_len271 (f : SymStep 2) (s : State) : exec (.len271 f) s = execLen271 f s := rfl
@[simp] theorem exec_len272 (f : SymStep 2) (s : State) : exec (.len272 f) s = execLen272 f s := rfl
@[simp] theorem exec_len273 (f : SymStep 3) (s : State) : exec (.len273 f) s = execLen273 f s := rfl
@[simp] theorem exec_len274 (f : SymStep 3) (s : State) : exec (.len274 f) s = execLen274 f s := rfl
@[simp] theorem exec_len275 (f : SymStep 3) (s : State) : exec (.len275 f) s = execLen275 f s := rfl
@[simp] theorem exec_len276 (f : SymStep 3) (s : State) : exec (.len276 f) s = execLen276 f s := rfl
@[simp] theorem exec_len277 (f : SymStep 4) (s : State) : exec (.len277 f) s = execLen277 f s := rfl
@[simp] theorem exec_len278 (f : SymStep 4) (s : State) : exec (.len278 f) s = execLen278 f s := rfl
@[simp] theorem exec_len279 (f : SymStep 4) (s : State) : exec (.len279 f) s = execLen279 f s := rfl
@[simp] theorem exec_len280 (f : SymStep 4) (s : State) : exec (.len280 f) s = execLen280 f s := rfl
@[simp] theorem exec_len281 (f : SymStep 5) (s : State) : exec (.len281 f) s = execLen281 f s := rfl
@[simp] theorem exec_len282 (f : SymStep 5) (s : State) : exec (.len282 f) s = execLen282 f s := rfl
@[simp] theorem exec_len283 (f : SymStep 5) (s : State) : exec (.len283 f) s = execLen283 f s := rfl
@[simp] theorem exec_len284 (f : SymStep 5) (s : State) : exec (.len284 f) s = execLen284 f s := rfl
@[simp] theorem exec_len285 (f : SymStep 0) (s : State) : exec (.len285 f) s = execLen285 f s := rfl
@[simp] theorem exec_llReserved (x : BitVec 1) (s : State) : exec (.llReserved x) s = execLLReserved x s := rfl
@[simp] theorem exec_dist0 (f : SymStep 0) (s : State) : exec (.dist0 f) s = execDist0 f s := rfl
@[simp] theorem exec_dist1 (f : SymStep 0) (s : State) : exec (.dist1 f) s = execDist1 f s := rfl
@[simp] theorem exec_dist2 (f : SymStep 0) (s : State) : exec (.dist2 f) s = execDist2 f s := rfl
@[simp] theorem exec_dist3 (f : SymStep 0) (s : State) : exec (.dist3 f) s = execDist3 f s := rfl
@[simp] theorem exec_dist4 (f : SymStep 1) (s : State) : exec (.dist4 f) s = execDist4 f s := rfl
@[simp] theorem exec_dist5 (f : SymStep 1) (s : State) : exec (.dist5 f) s = execDist5 f s := rfl
@[simp] theorem exec_dist6 (f : SymStep 2) (s : State) : exec (.dist6 f) s = execDist6 f s := rfl
@[simp] theorem exec_dist7 (f : SymStep 2) (s : State) : exec (.dist7 f) s = execDist7 f s := rfl
@[simp] theorem exec_dist8 (f : SymStep 3) (s : State) : exec (.dist8 f) s = execDist8 f s := rfl
@[simp] theorem exec_dist9 (f : SymStep 3) (s : State) : exec (.dist9 f) s = execDist9 f s := rfl
@[simp] theorem exec_dist10 (f : SymStep 4) (s : State) : exec (.dist10 f) s = execDist10 f s := rfl
@[simp] theorem exec_dist11 (f : SymStep 4) (s : State) : exec (.dist11 f) s = execDist11 f s := rfl
@[simp] theorem exec_dist12 (f : SymStep 5) (s : State) : exec (.dist12 f) s = execDist12 f s := rfl
@[simp] theorem exec_dist13 (f : SymStep 5) (s : State) : exec (.dist13 f) s = execDist13 f s := rfl
@[simp] theorem exec_dist14 (f : SymStep 6) (s : State) : exec (.dist14 f) s = execDist14 f s := rfl
@[simp] theorem exec_dist15 (f : SymStep 6) (s : State) : exec (.dist15 f) s = execDist15 f s := rfl
@[simp] theorem exec_dist16 (f : SymStep 7) (s : State) : exec (.dist16 f) s = execDist16 f s := rfl
@[simp] theorem exec_dist17 (f : SymStep 7) (s : State) : exec (.dist17 f) s = execDist17 f s := rfl
@[simp] theorem exec_dist18 (f : SymStep 8) (s : State) : exec (.dist18 f) s = execDist18 f s := rfl
@[simp] theorem exec_dist19 (f : SymStep 8) (s : State) : exec (.dist19 f) s = execDist19 f s := rfl
@[simp] theorem exec_dist20 (f : SymStep 9) (s : State) : exec (.dist20 f) s = execDist20 f s := rfl
@[simp] theorem exec_dist21 (f : SymStep 9) (s : State) : exec (.dist21 f) s = execDist21 f s := rfl
@[simp] theorem exec_dist22 (f : SymStep 10) (s : State) : exec (.dist22 f) s = execDist22 f s := rfl
@[simp] theorem exec_dist23 (f : SymStep 10) (s : State) : exec (.dist23 f) s = execDist23 f s := rfl
@[simp] theorem exec_dist24 (f : SymStep 11) (s : State) : exec (.dist24 f) s = execDist24 f s := rfl
@[simp] theorem exec_dist25 (f : SymStep 11) (s : State) : exec (.dist25 f) s = execDist25 f s := rfl
@[simp] theorem exec_dist26 (f : SymStep 12) (s : State) : exec (.dist26 f) s = execDist26 f s := rfl
@[simp] theorem exec_dist27 (f : SymStep 12) (s : State) : exec (.dist27 f) s = execDist27 f s := rfl
@[simp] theorem exec_dist28 (f : SymStep 13) (s : State) : exec (.dist28 f) s = execDist28 f s := rfl
@[simp] theorem exec_dist29 (f : SymStep 13) (s : State) : exec (.dist29 f) s = execDist29 f s := rfl
@[simp] theorem exec_dReserved (x : BitVec 1) (s : State) : exec (.dReserved x) s = execDReserved x s := rfl
@[simp] theorem exec_matchCopy (len : BitVec 9) (dist : BitVec 16) (s : State) : exec (.matchCopy len dist) s = execMatchCopy len dist s := rfl
@[simp] theorem exec_trailer (b : Byte) (s : State) : exec (.trailer b) s = execTrailer b s := rfl
@[simp] theorem exec_start (s : State) : exec .start s = execStart s := rfl
@[simp] theorem exec_eoi (s : State) : exec .eoi s = execEoi s := rfl
@[simp] theorem exec_abort (s : State) : exec .abort s = execAbort s := rfl
@[simp] theorem exec_push (b : Byte) (s : State) : exec (.push b) s = execPush b s := rfl
@[simp] theorem exec_pop (s : State) : exec .pop s = execPop s := rfl
@[simp] theorem exec_wrConfig (v : Word) (s : State) : exec (.wrConfig v) s = execWrConfig v s := rfl
@[simp] theorem exec_wrOutLimit (v : Word) (s : State) : exec (.wrOutLimit v) s = execWrOutLimit v s := rfl
@[simp] theorem exec_wrCrcExpect (v : Word) (s : State) : exec (.wrCrcExpect v) s = execWrCrcExpect v s := rfl
@[simp] theorem exec_rdReg (k : BitVec 5) (s : State) : exec (.rdReg k) s = execRdReg k s := rfl
@[simp] theorem exec_crcInit (s : State) : exec .crcInit s = execCrcInit s := rfl
@[simp] theorem exec_crcByte (b : Byte) (s : State) : exec (.crcByte b) s = execCrcByte b s := rfl
@[simp] theorem exec_rdCrcValue (s : State) : exec .rdCrcValue s = execRdCrcValue s := rfl
@[simp] theorem exec_rdCrcStatus (s : State) : exec .rdCrcStatus s = execRdCrcStatus s := rfl

end Sys2Proof.Machine
end

