-- ==== Sys2Proof/Laws/Memory.lean ====
section
/-! SUPPORT. The laws of the window memory (R66 to R68): read after write, the canonical form, and the cell a distance
names. -/

namespace Sys2Proof.Machine

theorem Memory.read_write_same (m : List Host.Cell) (a : Nat) (b : Byte) :
    Memory.read (Memory.write m a b) a = some b := by
  induction m with
  | nil => simp [Memory.write, Memory.read]
  | cons c m ih =>
    obtain ⟨x, y⟩ := c
    simp only [Memory.write]
    split
    · simp [Memory.read]
    · split
      · simp [Memory.read]
      · simp [Memory.read, *]

theorem Memory.read_write_other (m : List Host.Cell) {a a' : Nat} (b : Byte) (h : a' ≠ a) :
    Memory.read (Memory.write m a b) a' = Memory.read m a' := by
  induction m with
  | nil => simp [Memory.write, Memory.read, h]
  | cons c m ih =>
    obtain ⟨x, y⟩ := c
    simp only [Memory.write]
    split
    · simp [Memory.read, h]
    · split
      · rename_i hx
        simp [Memory.read, h, ← hx]
      · simp [Memory.read, ih]

theorem Memory.wfFrom_write (m : List Host.Cell) (lo a : Nat) (b : Byte) (hlo : lo ≤ a) (ha : a < Config.wsize)
    (h : Memory.wfFrom lo m = true) : Memory.wfFrom lo (Memory.write m a b) = true := by
  induction m generalizing lo with
  | nil => simp [Memory.write, Memory.wfFrom, hlo, ha]
  | cons c m ih =>
    obtain ⟨x, y⟩ := c
    simp only [Memory.wfFrom, Bool.and_eq_true, decide_eq_true_eq] at h
    obtain ⟨⟨h1, h2⟩, h3⟩ := h
    simp only [Memory.write]
    split
    · simp [Memory.wfFrom, hlo, ha, h2, h3]; omega
    · split
      · rename_i hx
        simp [Memory.wfFrom, hlo, ha]; rw [hx]; exact h3
      · simp only [Memory.wfFrom, Bool.and_eq_true, decide_eq_true_eq]
        exact ⟨⟨h1, h2⟩, ih (x + 1) (by omega) h3⟩

/-- Every write keeps the canonical form (R66). -/
theorem Memory.wf_write (m : List Host.Cell) (a : Nat) (b : Byte) (ha : a < Config.wsize) (h : Memory.wf m = true) :
    Memory.wf (Memory.write m a b) = true :=
  Memory.wfFrom_write m 0 a b (Nat.zero_le a) ha h

theorem winCell_lt (wp : BitVec 15) (d : Nat) : winCell wp d < Config.wsize :=
  Nat.mod_lt _ (by decide)

/-- The most recent byte's cell is the one just before WP (R67, R68). -/
theorem winCell_succ_one (wp : BitVec 15) : winCell (wp + 1) 1 = wp.toNat := by
  have := wp.isLt
  have h1 : (1 : BitVec 15).toNat = 1 := rfl
  simp only [winCell, Config.wsize, BitVec.toNat_add, h1]
  omega

/-- A write moves every older byte one further away (R67, R68). -/
theorem winCell_succ (wp : BitVec 15) (d : Nat) (h : d < Config.wsize) :
    winCell (wp + 1) (d + 1) = winCell wp d := by
  have := wp.isLt
  have h1 : (1 : BitVec 15).toNat = 1 := rfl
  simp only [winCell, Config.wsize, BitVec.toNat_add, h1] at *
  omega

/-- A cell of another distance below WSIZE is not WP's. -/
theorem winCell_ne_wp (wp : BitVec 15) (d : Nat) (h1 : 1 ≤ d) (h : d < Config.wsize) : winCell wp d ≠ wp.toNat := by
  have := wp.isLt
  simp only [winCell, Config.wsize] at *
  omega

end Sys2Proof.Machine
end

