-- ==== Sys2Proof/Laws/State.lean ====
section
/-! SUPPORT. What each named update of State leaves in each field: one lemma a field, true by definition. -/

namespace Sys2Proof.Machine.State

@[simp] theorem unhold_cfg (s : State) : (s.unhold).cfg = s.cfg := rfl
@[simp] theorem unhold_agenda (s : State) : (s.unhold).agenda = s.agenda := rfl
@[simp] theorem unhold_rdata (s : State) : (s.unhold).rdata = s.rdata := rfl
@[simp] theorem unhold_top (s : State) : (s.unhold).top = s.top := rfl
@[simp] theorem unhold_phase (s : State) : (s.unhold).phase = s.phase := rfl
@[simp] theorem unhold_sub (s : State) : (s.unhold).sub = s.sub := rfl
@[simp] theorem unhold_eoiSeen (s : State) : (s.unhold).eoiSeen = s.eoiSeen := rfl
@[simp] theorem unhold_inDrop (s : State) : (s.unhold).inDrop = s.inDrop := rfl
@[simp] theorem unhold_heldIn (s : State) : (s.unhold).heldIn = false := rfl
@[simp] theorem unhold_heldOut (s : State) : (s.unhold).heldOut = false := rfl
@[simp] theorem unhold_ctl (s : State) : (s.unhold).ctl = s.ctl := rfl
@[simp] theorem unhold_err (s : State) : (s.unhold).err = s.err := rfl
@[simp] theorem unhold_inp (s : State) : (s.unhold).inp = s.inp := rfl
@[simp] theorem unhold_out (s : State) : (s.unhold).out = s.out := rfl
@[simp] theorem unhold_zl (s : State) : (s.unhold).zl = s.zl := rfl
@[simp] theorem unhold_blk (s : State) : (s.unhold).blk = s.blk := rfl
@[simp] theorem unhold_tabs (s : State) : (s.unhold).tabs = s.tabs := rfl
@[simp] theorem unhold_hc (s : State) : (s.unhold).hc = s.hc := rfl
@[simp] theorem unhold_copy (s : State) : (s.unhold).copy = s.copy := rfl
@[simp] theorem unhold_crc (s : State) : (s.unhold).crc = s.crc := rfl

@[simp] theorem goto_cfg (s : State) (p : Phase) : (s.goto p).cfg = s.cfg := rfl
@[simp] theorem goto_agenda (s : State) (p : Phase) : (s.goto p).agenda = s.agenda := rfl
@[simp] theorem goto_rdata (s : State) (p : Phase) : (s.goto p).rdata = s.rdata := rfl
@[simp] theorem goto_top (s : State) (p : Phase) : (s.goto p).top = s.top := rfl
@[simp] theorem goto_phase (s : State) (p : Phase) : (s.goto p).phase = p := rfl
@[simp] theorem goto_sub (s : State) (p : Phase) : (s.goto p).sub = 0 := rfl
@[simp] theorem goto_eoiSeen (s : State) (p : Phase) : (s.goto p).eoiSeen = s.eoiSeen := rfl
@[simp] theorem goto_inDrop (s : State) (p : Phase) : (s.goto p).inDrop = s.inDrop := rfl
@[simp] theorem goto_heldIn (s : State) (p : Phase) : (s.goto p).heldIn = s.heldIn := rfl
@[simp] theorem goto_heldOut (s : State) (p : Phase) : (s.goto p).heldOut = s.heldOut := rfl
@[simp] theorem goto_ctl (s : State) (p : Phase) : (s.goto p).ctl = s.ctl := rfl
@[simp] theorem goto_err (s : State) (p : Phase) : (s.goto p).err = s.err := rfl
@[simp] theorem goto_inp (s : State) (p : Phase) : (s.goto p).inp = s.inp := rfl
@[simp] theorem goto_out (s : State) (p : Phase) : (s.goto p).out = s.out := rfl
@[simp] theorem goto_zl (s : State) (p : Phase) : (s.goto p).zl = s.zl := rfl
@[simp] theorem goto_blk (s : State) (p : Phase) : (s.goto p).blk = s.blk := rfl
@[simp] theorem goto_tabs (s : State) (p : Phase) : (s.goto p).tabs = s.tabs := rfl
@[simp] theorem goto_hc (s : State) (p : Phase) : (s.goto p).hc = s.hc := rfl
@[simp] theorem goto_copy (s : State) (p : Phase) : (s.goto p).copy = s.copy := rfl
@[simp] theorem goto_crc (s : State) (p : Phase) : (s.goto p).crc = s.crc := rfl

@[simp] theorem into_cfg (s : State) (p : Phase) : (s.into p).cfg = s.cfg := rfl
@[simp] theorem into_agenda (s : State) (p : Phase) : (s.into p).agenda = s.agenda := rfl
@[simp] theorem into_rdata (s : State) (p : Phase) : (s.into p).rdata = s.rdata := rfl
@[simp] theorem into_top (s : State) (p : Phase) : (s.into p).top = s.top := rfl
@[simp] theorem into_phase (s : State) (p : Phase) : (s.into p).phase = p := rfl
@[simp] theorem into_sub (s : State) (p : Phase) : (s.into p).sub = 0 := rfl
@[simp] theorem into_eoiSeen (s : State) (p : Phase) : (s.into p).eoiSeen = s.eoiSeen := rfl
@[simp] theorem into_inDrop (s : State) (p : Phase) : (s.into p).inDrop = s.inDrop := rfl
@[simp] theorem into_heldIn (s : State) (p : Phase) : (s.into p).heldIn = s.heldIn := rfl
@[simp] theorem into_heldOut (s : State) (p : Phase) : (s.into p).heldOut = s.heldOut := rfl
@[simp] theorem into_ctl (s : State) (p : Phase) : (s.into p).ctl = s.ctl := rfl
@[simp] theorem into_err (s : State) (p : Phase) : (s.into p).err = s.err := rfl
@[simp] theorem into_inp (s : State) (p : Phase) : (s.into p).inp = s.inp := rfl
@[simp] theorem into_out (s : State) (p : Phase) : (s.into p).out = s.out := rfl
@[simp] theorem into_zl (s : State) (p : Phase) : (s.into p).zl = s.zl := rfl
@[simp] theorem into_blk (s : State) (p : Phase) : (s.into p).blk = s.blk := rfl
@[simp] theorem into_tabs (s : State) (p : Phase) : (s.into p).tabs = s.tabs := rfl
@[simp] theorem into_hc (s : State) (p : Phase) : (s.into p).hc = s.hc := rfl
@[simp] theorem into_copy (s : State) (p : Phase) : (s.into p).copy = s.copy := rfl
@[simp] theorem into_crc (s : State) (p : Phase) : (s.into p).crc = s.crc := rfl

@[simp] theorem fail_cfg (s : State) (c : ErrCause) : (s.fail c).cfg = s.cfg := rfl
@[simp] theorem fail_agenda (s : State) (c : ErrCause) : (s.fail c).agenda = s.agenda := rfl
@[simp] theorem fail_rdata (s : State) (c : ErrCause) : (s.fail c).rdata = s.rdata := rfl
@[simp] theorem fail_top (s : State) (c : ErrCause) : (s.fail c).top = .failed := rfl
@[simp] theorem fail_phase (s : State) (c : ErrCause) : (s.fail c).phase = s.phase := rfl
@[simp] theorem fail_sub (s : State) (c : ErrCause) : (s.fail c).sub = s.sub := rfl
@[simp] theorem fail_eoiSeen (s : State) (c : ErrCause) : (s.fail c).eoiSeen = s.eoiSeen := rfl
@[simp] theorem fail_inDrop (s : State) (c : ErrCause) : (s.fail c).inDrop = s.inDrop := rfl
@[simp] theorem fail_heldIn (s : State) (c : ErrCause) : (s.fail c).heldIn = s.heldIn := rfl
@[simp] theorem fail_heldOut (s : State) (c : ErrCause) : (s.fail c).heldOut = s.heldOut := rfl
@[simp] theorem fail_ctl (s : State) (c : ErrCause) : (s.fail c).ctl = s.ctl := rfl
@[simp] theorem fail_err (s : State) (c : ErrCause) :
    (s.fail c).err =
      { kind := BitVec.ofNat 4 c.kind.code, cause := BitVec.ofNat 8 c.code, bits := s.inp.cnt, byte := s.inp.count } := rfl
@[simp] theorem fail_inp (s : State) (c : ErrCause) : (s.fail c).inp = s.inp := rfl
@[simp] theorem fail_out (s : State) (c : ErrCause) : (s.fail c).out = s.out := rfl
@[simp] theorem fail_zl (s : State) (c : ErrCause) : (s.fail c).zl = s.zl := rfl
@[simp] theorem fail_blk (s : State) (c : ErrCause) : (s.fail c).blk = s.blk := rfl
@[simp] theorem fail_tabs (s : State) (c : ErrCause) : (s.fail c).tabs = s.tabs := rfl
@[simp] theorem fail_hc (s : State) (c : ErrCause) : (s.fail c).hc = s.hc := rfl
@[simp] theorem fail_copy (s : State) (c : ErrCause) : (s.fail c).copy = s.copy := rfl
@[simp] theorem fail_crc (s : State) (c : ErrCause) : (s.fail c).crc = s.crc := rfl

@[simp] theorem stopped_cfg (s : State) (k c : Nat) : (s.stopped k c).cfg = s.cfg := rfl
@[simp] theorem stopped_agenda (s : State) (k c : Nat) : (s.stopped k c).agenda = s.agenda := rfl
@[simp] theorem stopped_rdata (s : State) (k c : Nat) : (s.stopped k c).rdata = s.rdata := rfl
@[simp] theorem stopped_top (s : State) (k c : Nat) : (s.stopped k c).top = .failed := rfl
@[simp] theorem stopped_phase (s : State) (k c : Nat) : (s.stopped k c).phase = s.phase := rfl
@[simp] theorem stopped_sub (s : State) (k c : Nat) : (s.stopped k c).sub = s.sub := rfl
@[simp] theorem stopped_eoiSeen (s : State) (k c : Nat) : (s.stopped k c).eoiSeen = s.eoiSeen := rfl
@[simp] theorem stopped_inDrop (s : State) (k c : Nat) : (s.stopped k c).inDrop = s.inDrop := rfl
@[simp] theorem stopped_heldIn (s : State) (k c : Nat) : (s.stopped k c).heldIn = s.heldIn := rfl
@[simp] theorem stopped_heldOut (s : State) (k c : Nat) : (s.stopped k c).heldOut = s.heldOut := rfl
@[simp] theorem stopped_ctl (s : State) (k c : Nat) : (s.stopped k c).ctl = s.ctl := rfl
@[simp] theorem stopped_err (s : State) (k c : Nat) :
    (s.stopped k c).err =
      { kind := BitVec.ofNat 4 k, cause := BitVec.ofNat 8 c, bits := s.inp.cnt, byte := s.inp.count } := rfl
@[simp] theorem stopped_inp (s : State) (k c : Nat) : (s.stopped k c).inp = s.inp := rfl
@[simp] theorem stopped_out (s : State) (k c : Nat) : (s.stopped k c).out = s.out := rfl
@[simp] theorem stopped_zl (s : State) (k c : Nat) : (s.stopped k c).zl = s.zl := rfl
@[simp] theorem stopped_blk (s : State) (k c : Nat) : (s.stopped k c).blk = s.blk := rfl
@[simp] theorem stopped_tabs (s : State) (k c : Nat) : (s.stopped k c).tabs = s.tabs := rfl
@[simp] theorem stopped_hc (s : State) (k c : Nat) : (s.stopped k c).hc = s.hc := rfl
@[simp] theorem stopped_copy (s : State) (k c : Nat) : (s.stopped k c).copy = s.copy := rfl
@[simp] theorem stopped_crc (s : State) (k c : Nat) : (s.stopped k c).crc = s.crc := rfl

@[simp] theorem dropBits_cfg (s : State) (n : Nat) : (s.dropBits n).cfg = s.cfg := rfl
@[simp] theorem dropBits_agenda (s : State) (n : Nat) : (s.dropBits n).agenda = s.agenda := rfl
@[simp] theorem dropBits_rdata (s : State) (n : Nat) : (s.dropBits n).rdata = s.rdata := rfl
@[simp] theorem dropBits_top (s : State) (n : Nat) : (s.dropBits n).top = s.top := rfl
@[simp] theorem dropBits_phase (s : State) (n : Nat) : (s.dropBits n).phase = s.phase := rfl
@[simp] theorem dropBits_sub (s : State) (n : Nat) : (s.dropBits n).sub = s.sub := rfl
@[simp] theorem dropBits_eoiSeen (s : State) (n : Nat) : (s.dropBits n).eoiSeen = s.eoiSeen := rfl
@[simp] theorem dropBits_inDrop (s : State) (n : Nat) : (s.dropBits n).inDrop = s.inDrop := rfl
@[simp] theorem dropBits_heldIn (s : State) (n : Nat) : (s.dropBits n).heldIn = s.heldIn := rfl
@[simp] theorem dropBits_heldOut (s : State) (n : Nat) : (s.dropBits n).heldOut = s.heldOut := rfl
@[simp] theorem dropBits_ctl (s : State) (n : Nat) : (s.dropBits n).ctl = s.ctl := rfl
@[simp] theorem dropBits_err (s : State) (n : Nat) : (s.dropBits n).err = s.err := rfl
@[simp] theorem dropBits_inp (s : State) (n : Nat) :
    (s.dropBits n).inp =
      { s.inp with buf := s.inp.buf >>> n, cnt := BitVec.ofNat 5 (s.inp.cnt.toNat - n) } := rfl
@[simp] theorem dropBits_out (s : State) (n : Nat) : (s.dropBits n).out = s.out := rfl
@[simp] theorem dropBits_zl (s : State) (n : Nat) : (s.dropBits n).zl = s.zl := rfl
@[simp] theorem dropBits_blk (s : State) (n : Nat) : (s.dropBits n).blk = s.blk := rfl
@[simp] theorem dropBits_tabs (s : State) (n : Nat) : (s.dropBits n).tabs = s.tabs := rfl
@[simp] theorem dropBits_hc (s : State) (n : Nat) : (s.dropBits n).hc = s.hc := rfl
@[simp] theorem dropBits_copy (s : State) (n : Nat) : (s.dropBits n).copy = s.copy := rfl
@[simp] theorem dropBits_crc (s : State) (n : Nat) : (s.dropBits n).crc = s.crc := rfl

@[simp] theorem took_cfg (s : State) (n : Nat) : (s.took n).cfg = s.cfg := rfl
@[simp] theorem took_agenda (s : State) (n : Nat) : (s.took n).agenda = s.agenda := rfl
@[simp] theorem took_rdata (s : State) (n : Nat) : (s.took n).rdata = s.rdata := rfl
@[simp] theorem took_top (s : State) (n : Nat) : (s.took n).top = s.top := rfl
@[simp] theorem took_phase (s : State) (n : Nat) : (s.took n).phase = s.phase := rfl
@[simp] theorem took_sub (s : State) (n : Nat) : (s.took n).sub = s.sub := rfl
@[simp] theorem took_eoiSeen (s : State) (n : Nat) : (s.took n).eoiSeen = s.eoiSeen := rfl
@[simp] theorem took_inDrop (s : State) (n : Nat) : (s.took n).inDrop = s.inDrop := rfl
@[simp] theorem took_heldIn (s : State) (n : Nat) : (s.took n).heldIn = false := rfl
@[simp] theorem took_heldOut (s : State) (n : Nat) : (s.took n).heldOut = false := rfl
@[simp] theorem took_ctl (s : State) (n : Nat) : (s.took n).ctl = s.ctl := rfl
@[simp] theorem took_err (s : State) (n : Nat) : (s.took n).err = s.err := rfl
@[simp] theorem took_inp (s : State) (n : Nat) :
    (s.took n).inp =
      { s.inp with buf := s.inp.buf >>> n, cnt := BitVec.ofNat 5 (s.inp.cnt.toNat - n) } := rfl
@[simp] theorem took_out (s : State) (n : Nat) : (s.took n).out = s.out := rfl
@[simp] theorem took_zl (s : State) (n : Nat) : (s.took n).zl = s.zl := rfl
@[simp] theorem took_blk (s : State) (n : Nat) : (s.took n).blk = s.blk := rfl
@[simp] theorem took_tabs (s : State) (n : Nat) : (s.took n).tabs = s.tabs := rfl
@[simp] theorem took_hc (s : State) (n : Nat) : (s.took n).hc = s.hc := rfl
@[simp] theorem took_copy (s : State) (n : Nat) : (s.took n).copy = s.copy := rfl
@[simp] theorem took_crc (s : State) (n : Nat) : (s.took n).crc = s.crc := rfl

@[simp] theorem alignToByte_cfg (s : State) : (s.alignToByte).cfg = s.cfg := rfl
@[simp] theorem alignToByte_agenda (s : State) : (s.alignToByte).agenda = s.agenda := rfl
@[simp] theorem alignToByte_rdata (s : State) : (s.alignToByte).rdata = s.rdata := rfl
@[simp] theorem alignToByte_top (s : State) : (s.alignToByte).top = s.top := rfl
@[simp] theorem alignToByte_phase (s : State) : (s.alignToByte).phase = s.phase := rfl
@[simp] theorem alignToByte_sub (s : State) : (s.alignToByte).sub = s.sub := rfl
@[simp] theorem alignToByte_eoiSeen (s : State) : (s.alignToByte).eoiSeen = s.eoiSeen := rfl
@[simp] theorem alignToByte_inDrop (s : State) : (s.alignToByte).inDrop = s.inDrop := rfl
@[simp] theorem alignToByte_heldIn (s : State) : (s.alignToByte).heldIn = s.heldIn := rfl
@[simp] theorem alignToByte_heldOut (s : State) : (s.alignToByte).heldOut = s.heldOut := rfl
@[simp] theorem alignToByte_ctl (s : State) : (s.alignToByte).ctl = s.ctl := rfl
@[simp] theorem alignToByte_err (s : State) : (s.alignToByte).err = s.err := rfl
@[simp] theorem alignToByte_inp (s : State) : (s.alignToByte).inp = (s.dropBits (s.inp.cnt.toNat % 8)).inp := rfl
@[simp] theorem alignToByte_out (s : State) : (s.alignToByte).out = s.out := rfl
@[simp] theorem alignToByte_zl (s : State) : (s.alignToByte).zl = s.zl := rfl
@[simp] theorem alignToByte_blk (s : State) : (s.alignToByte).blk = s.blk := rfl
@[simp] theorem alignToByte_tabs (s : State) : (s.alignToByte).tabs = s.tabs := rfl
@[simp] theorem alignToByte_hc (s : State) : (s.alignToByte).hc = s.hc := rfl
@[simp] theorem alignToByte_copy (s : State) : (s.alignToByte).copy = s.copy := rfl
@[simp] theorem alignToByte_crc (s : State) : (s.alignToByte).crc = s.crc := rfl

@[simp] theorem takeByte_cfg (s : State) (b : Byte) (r : List Byte) : (s.takeByte b r).cfg = s.cfg := rfl
@[simp] theorem takeByte_agenda (s : State) (b : Byte) (r : List Byte) : (s.takeByte b r).agenda = s.agenda := rfl
@[simp] theorem takeByte_rdata (s : State) (b : Byte) (r : List Byte) : (s.takeByte b r).rdata = s.rdata := rfl
@[simp] theorem takeByte_top (s : State) (b : Byte) (r : List Byte) : (s.takeByte b r).top = s.top := rfl
@[simp] theorem takeByte_phase (s : State) (b : Byte) (r : List Byte) : (s.takeByte b r).phase = s.phase := rfl
@[simp] theorem takeByte_sub (s : State) (b : Byte) (r : List Byte) : (s.takeByte b r).sub = s.sub := rfl
@[simp] theorem takeByte_eoiSeen (s : State) (b : Byte) (r : List Byte) : (s.takeByte b r).eoiSeen = s.eoiSeen := rfl
@[simp] theorem takeByte_inDrop (s : State) (b : Byte) (r : List Byte) : (s.takeByte b r).inDrop = s.inDrop := rfl
@[simp] theorem takeByte_heldIn (s : State) (b : Byte) (r : List Byte) : (s.takeByte b r).heldIn = s.heldIn := rfl
@[simp] theorem takeByte_heldOut (s : State) (b : Byte) (r : List Byte) : (s.takeByte b r).heldOut = s.heldOut := rfl
@[simp] theorem takeByte_ctl (s : State) (b : Byte) (r : List Byte) : (s.takeByte b r).ctl = s.ctl := rfl
@[simp] theorem takeByte_err (s : State) (b : Byte) (r : List Byte) : (s.takeByte b r).err = s.err := rfl
@[simp] theorem takeByte_inp (s : State) (b : Byte) (r : List Byte) :
    (s.takeByte b r).inp =
      { fifo := r, buf := s.inp.buf ||| (b.setWidth 24 <<< s.inp.cnt.toNat), cnt := s.inp.cnt + 8, count := s.inp.count + 1 } := rfl
@[simp] theorem takeByte_out (s : State) (b : Byte) (r : List Byte) : (s.takeByte b r).out = s.out := rfl
@[simp] theorem takeByte_zl (s : State) (b : Byte) (r : List Byte) : (s.takeByte b r).zl = s.zl := rfl
@[simp] theorem takeByte_blk (s : State) (b : Byte) (r : List Byte) : (s.takeByte b r).blk = s.blk := rfl
@[simp] theorem takeByte_tabs (s : State) (b : Byte) (r : List Byte) : (s.takeByte b r).tabs = s.tabs := rfl
@[simp] theorem takeByte_hc (s : State) (b : Byte) (r : List Byte) : (s.takeByte b r).hc = s.hc := rfl
@[simp] theorem takeByte_copy (s : State) (b : Byte) (r : List Byte) : (s.takeByte b r).copy = s.copy := rfl
@[simp] theorem takeByte_crc (s : State) (b : Byte) (r : List Byte) : (s.takeByte b r).crc = s.crc := rfl

@[simp] theorem endCode_cfg (s : State) : (s.endCode).cfg = s.cfg := rfl
@[simp] theorem endCode_agenda (s : State) : (s.endCode).agenda = s.agenda := rfl
@[simp] theorem endCode_rdata (s : State) : (s.endCode).rdata = s.rdata := rfl
@[simp] theorem endCode_top (s : State) : (s.endCode).top = s.top := rfl
@[simp] theorem endCode_phase (s : State) : (s.endCode).phase = s.phase := rfl
@[simp] theorem endCode_sub (s : State) : (s.endCode).sub = s.sub := rfl
@[simp] theorem endCode_eoiSeen (s : State) : (s.endCode).eoiSeen = s.eoiSeen := rfl
@[simp] theorem endCode_inDrop (s : State) : (s.endCode).inDrop = s.inDrop := rfl
@[simp] theorem endCode_heldIn (s : State) : (s.endCode).heldIn = s.heldIn := rfl
@[simp] theorem endCode_heldOut (s : State) : (s.endCode).heldOut = s.heldOut := rfl
@[simp] theorem endCode_ctl (s : State) : (s.endCode).ctl = s.ctl := rfl
@[simp] theorem endCode_err (s : State) : (s.endCode).err = s.err := rfl
@[simp] theorem endCode_inp (s : State) : (s.endCode).inp = (s.dropBits 1).inp := rfl
@[simp] theorem endCode_out (s : State) : (s.endCode).out = s.out := rfl
@[simp] theorem endCode_zl (s : State) : (s.endCode).zl = s.zl := rfl
@[simp] theorem endCode_blk (s : State) : (s.endCode).blk = s.blk := rfl
@[simp] theorem endCode_tabs (s : State) : (s.endCode).tabs = s.tabs := rfl
@[simp] theorem endCode_hc (s : State) : (s.endCode).hc = Hc.zero := rfl
@[simp] theorem endCode_copy (s : State) : (s.endCode).copy = s.copy := rfl
@[simp] theorem endCode_crc (s : State) : (s.endCode).crc = s.crc := rfl

@[simp] theorem codeMore_cfg (s : State) (h : Hc) : (s.codeMore h).cfg = s.cfg := rfl
@[simp] theorem codeMore_agenda (s : State) (h : Hc) : (s.codeMore h).agenda = s.agenda := rfl
@[simp] theorem codeMore_rdata (s : State) (h : Hc) : (s.codeMore h).rdata = s.rdata := rfl
@[simp] theorem codeMore_top (s : State) (h : Hc) : (s.codeMore h).top = s.top := rfl
@[simp] theorem codeMore_phase (s : State) (h : Hc) : (s.codeMore h).phase = s.phase := rfl
@[simp] theorem codeMore_sub (s : State) (h : Hc) : (s.codeMore h).sub = s.sub := rfl
@[simp] theorem codeMore_eoiSeen (s : State) (h : Hc) : (s.codeMore h).eoiSeen = s.eoiSeen := rfl
@[simp] theorem codeMore_inDrop (s : State) (h : Hc) : (s.codeMore h).inDrop = s.inDrop := rfl
@[simp] theorem codeMore_heldIn (s : State) (h : Hc) : (s.codeMore h).heldIn = false := rfl
@[simp] theorem codeMore_heldOut (s : State) (h : Hc) : (s.codeMore h).heldOut = false := rfl
@[simp] theorem codeMore_ctl (s : State) (h : Hc) : (s.codeMore h).ctl = s.ctl := rfl
@[simp] theorem codeMore_err (s : State) (h : Hc) : (s.codeMore h).err = s.err := rfl
@[simp] theorem codeMore_inp (s : State) (h : Hc) : (s.codeMore h).inp = (s.dropBits 1).inp := rfl
@[simp] theorem codeMore_out (s : State) (h : Hc) : (s.codeMore h).out = s.out := rfl
@[simp] theorem codeMore_zl (s : State) (h : Hc) : (s.codeMore h).zl = s.zl := rfl
@[simp] theorem codeMore_blk (s : State) (h : Hc) : (s.codeMore h).blk = s.blk := rfl
@[simp] theorem codeMore_tabs (s : State) (h : Hc) : (s.codeMore h).tabs = s.tabs := rfl
@[simp] theorem codeMore_hc (s : State) (h : Hc) : (s.codeMore h).hc = h := rfl
@[simp] theorem codeMore_copy (s : State) (h : Hc) : (s.codeMore h).copy = s.copy := rfl
@[simp] theorem codeMore_crc (s : State) (h : Hc) : (s.codeMore h).crc = s.crc := rfl

@[simp] theorem clearStream_cfg (s : State) : (s.clearStream).cfg = s.cfg := rfl
@[simp] theorem clearStream_agenda (s : State) : (s.clearStream).agenda = s.agenda := rfl
@[simp] theorem clearStream_rdata (s : State) : (s.clearStream).rdata = s.rdata := rfl
@[simp] theorem clearStream_top (s : State) : (s.clearStream).top = s.top := rfl
@[simp] theorem clearStream_ctl (s : State) : (s.clearStream).ctl = s.ctl := rfl
@[simp] theorem clearStream_tabs (s : State) : (s.clearStream).tabs = s.tabs := rfl
@[simp] theorem clearStream_crc (s : State) : (s.clearStream).crc = s.crc := rfl

@[simp] theorem header_cfg (s : State) (f : Bool) (b : BitVec 2) : (s.header f b).cfg = s.cfg := rfl
@[simp] theorem header_agenda (s : State) (f : Bool) (b : BitVec 2) : (s.header f b).agenda = s.agenda := rfl
@[simp] theorem header_rdata (s : State) (f : Bool) (b : BitVec 2) : (s.header f b).rdata = s.rdata := rfl
@[simp] theorem header_top (s : State) (f : Bool) (b : BitVec 2) : (s.header f b).top = s.top := rfl
@[simp] theorem header_phase (s : State) (f : Bool) (b : BitVec 2) : (s.header f b).phase = s.phase := rfl
@[simp] theorem header_sub (s : State) (f : Bool) (b : BitVec 2) : (s.header f b).sub = s.sub := rfl
@[simp] theorem header_eoiSeen (s : State) (f : Bool) (b : BitVec 2) : (s.header f b).eoiSeen = s.eoiSeen := rfl
@[simp] theorem header_inDrop (s : State) (f : Bool) (b : BitVec 2) : (s.header f b).inDrop = s.inDrop := rfl
@[simp] theorem header_heldIn (s : State) (f : Bool) (b : BitVec 2) : (s.header f b).heldIn = s.heldIn := rfl
@[simp] theorem header_heldOut (s : State) (f : Bool) (b : BitVec 2) : (s.header f b).heldOut = s.heldOut := rfl
@[simp] theorem header_ctl (s : State) (f : Bool) (b : BitVec 2) : (s.header f b).ctl = s.ctl := rfl
@[simp] theorem header_err (s : State) (f : Bool) (b : BitVec 2) : (s.header f b).err = s.err := rfl
@[simp] theorem header_inp (s : State) (f : Bool) (b : BitVec 2) : (s.header f b).inp = (s.dropBits 3).inp := rfl
@[simp] theorem header_out (s : State) (f : Bool) (b : BitVec 2) : (s.header f b).out = s.out := rfl
@[simp] theorem header_zl (s : State) (f : Bool) (b : BitVec 2) : (s.header f b).zl = s.zl := rfl
@[simp] theorem header_blk (s : State) (f : Bool) (b : BitVec 2) :
    (s.header f b).blk =
      { s.blk with bfinal := f, btype := b } := rfl
@[simp] theorem header_tabs (s : State) (f : Bool) (b : BitVec 2) : (s.header f b).tabs = s.tabs := rfl
@[simp] theorem header_hc (s : State) (f : Bool) (b : BitVec 2) : (s.header f b).hc = s.hc := rfl
@[simp] theorem header_copy (s : State) (f : Bool) (b : BitVec 2) : (s.header f b).copy = s.copy := rfl
@[simp] theorem header_crc (s : State) (f : Bool) (b : BitVec 2) : (s.header f b).crc = s.crc := rfl

@[simp] theorem awaitRepeat_cfg (s : State) (x : BitVec 5) : (s.awaitRepeat x).cfg = s.cfg := rfl
@[simp] theorem awaitRepeat_agenda (s : State) (x : BitVec 5) : (s.awaitRepeat x).agenda = s.agenda := rfl
@[simp] theorem awaitRepeat_rdata (s : State) (x : BitVec 5) : (s.awaitRepeat x).rdata = s.rdata := rfl
@[simp] theorem awaitRepeat_top (s : State) (x : BitVec 5) : (s.awaitRepeat x).top = s.top := rfl
@[simp] theorem awaitRepeat_phase (s : State) (x : BitVec 5) : (s.awaitRepeat x).phase = s.phase := rfl
@[simp] theorem awaitRepeat_sub (s : State) (x : BitVec 5) : (s.awaitRepeat x).sub = s.sub := rfl
@[simp] theorem awaitRepeat_eoiSeen (s : State) (x : BitVec 5) : (s.awaitRepeat x).eoiSeen = s.eoiSeen := rfl
@[simp] theorem awaitRepeat_inDrop (s : State) (x : BitVec 5) : (s.awaitRepeat x).inDrop = s.inDrop := rfl
@[simp] theorem awaitRepeat_heldIn (s : State) (x : BitVec 5) : (s.awaitRepeat x).heldIn = s.heldIn := rfl
@[simp] theorem awaitRepeat_heldOut (s : State) (x : BitVec 5) : (s.awaitRepeat x).heldOut = s.heldOut := rfl
@[simp] theorem awaitRepeat_ctl (s : State) (x : BitVec 5) : (s.awaitRepeat x).ctl = s.ctl := rfl
@[simp] theorem awaitRepeat_err (s : State) (x : BitVec 5) : (s.awaitRepeat x).err = s.err := rfl
@[simp] theorem awaitRepeat_inp (s : State) (x : BitVec 5) : (s.awaitRepeat x).inp = (s.dropBits 1).inp := rfl
@[simp] theorem awaitRepeat_out (s : State) (x : BitVec 5) : (s.awaitRepeat x).out = s.out := rfl
@[simp] theorem awaitRepeat_zl (s : State) (x : BitVec 5) : (s.awaitRepeat x).zl = s.zl := rfl
@[simp] theorem awaitRepeat_blk (s : State) (x : BitVec 5) : (s.awaitRepeat x).blk = { s.blk with clSym := x } := rfl
@[simp] theorem awaitRepeat_tabs (s : State) (x : BitVec 5) : (s.awaitRepeat x).tabs = s.tabs := rfl
@[simp] theorem awaitRepeat_hc (s : State) (x : BitVec 5) : (s.awaitRepeat x).hc = Hc.zero := rfl
@[simp] theorem awaitRepeat_copy (s : State) (x : BitVec 5) : (s.awaitRepeat x).copy = s.copy := rfl
@[simp] theorem awaitRepeat_crc (s : State) (x : BitVec 5) : (s.awaitRepeat x).crc = s.crc := rfl

end Sys2Proof.Machine.State
end

