-- ==== Sys2Proof/Laws/Ops.lean ====
section
/-! SUPPORT. What each shared operation can do, said once: the lemmas a proof about a meaning cites instead of unfolding
Machine/Ops.lean. -/

namespace Sys2Proof.Machine

/-! ## The claims' terms are the operations' -/

theorem State.took_eq (s : State) (n : Nat) : s.took n = s.unhold.dropBits n := rfl

theorem State.into_eq (s : State) (p : Phase) : s.into p = s.goto p := rfl

theorem State.fail_eq (s : State) (c : ErrCause) : s.fail c = s.stopped c.kind.code c.code := rfl

theorem State.aligned_eq (s : State) : s.aligned = s.alignToByte := rfl

theorem State.blockOver_eq (s : State) : s.blockOver = s.blockEnd := rfl

theorem State.dropBits_zero (s : State) : s.dropBits 0 = s := by
  have : BitVec.ofNat 5 s.inp.cnt.toNat = s.inp.cnt := by simp
  simp [State.dropBits, this]

theorem State.took_zero (s : State) : s.took 0 = s.unhold := State.dropBits_zero s.unhold

/-! ## INF's turn -/

theorem State.inf_running {s : State} (k : State → Out) (h : s.top = .running) : s.inf k = k s.unhold := by
  simp [State.inf, h]

theorem State.inf_stopped {s : State} (k : State → Out) (h : s.top ≠ .running) : s.inf k = .next s := by
  unfold State.inf
  split <;> simp_all

theorem State.infEmit_space {s : State} (k : State → Out) (h : s.top = .running) (hc : s.canEmit) :
    s.infEmit k = k s.unhold := by
  have : s.outFull = false := by simpa [State.outFull, State.canEmit] using hc
  simp [State.infEmit, h, this]

theorem State.infEmit_full {s : State} (k : State → Out) (h : s.top = .running) (hc : ¬ s.canEmit) :
    s.infEmit k = .next { s with heldOut := true } := by
  have : s.outFull = true := by simpa [State.outFull, State.canEmit] using hc
  simp [State.infEmit, h, this]

theorem State.infEmit_stopped {s : State} (k : State → Out) (h : s.top ≠ .running) : s.infEmit k = .next s := by
  unfold State.infEmit
  split <;> simp_all

/-- What a row that does not emit can do. -/
theorem State.inf_cases {s t : State} {k : State → Out} (h : s.inf k = .next t) :
    (s.top = .running ∧ k s.unhold = .next t) ∨ (s.top ≠ .running ∧ t = s) := by
  by_cases hr : s.top = .running
  · exact .inl ⟨hr, by rwa [State.inf_running k hr] at h⟩
  · rw [State.inf_stopped k hr] at h
    exact .inr ⟨hr, by injection h with h; exact h.symm⟩

/-- What a row that emits can do. -/
theorem State.infEmit_cases {s t : State} {k : State → Out} (h : s.infEmit k = .next t) :
    (s.top = .running ∧ s.canEmit ∧ k s.unhold = .next t) ∨
    (s.top = .running ∧ ¬ s.canEmit ∧ t = { s with heldOut := true }) ∨ (s.top ≠ .running ∧ t = s) := by
  by_cases hr : s.top = .running
  · by_cases hc : s.canEmit
    · exact .inl ⟨hr, hc, by rwa [State.infEmit_space k hr hc] at h⟩
    · rw [State.infEmit_full k hr hc] at h
      exact .inr (.inl ⟨hr, hc, by injection h with h; exact h.symm⟩)
  · rw [State.infEmit_stopped k hr] at h
    exact .inr (.inr ⟨hr, by injection h with h; exact h.symm⟩)

/-! ## The bit reader -/

/-- The four things a fill step can do (R61, R218). -/
theorem State.fill_cases (s : State) :
    (∃ b rest, s.inp.fifo = b :: rest ∧ s.inp.count ≠ 0xFFFFFFFF ∧ s.fill = s.unhold.takeByte b rest) ∨
    (s.inp.fifo ≠ [] ∧ s.inp.count = 0xFFFFFFFF ∧ s.fill = s.unhold.fail .countWrap) ∨
    (s.inp.fifo = [] ∧ s.eoiSeen = true ∧ s.fill = s.unhold.fail .truncated) ∨
    (s.inp.fifo = [] ∧ s.eoiSeen = false ∧ s.fill = { s with heldIn := true }) := by
  unfold State.fill
  split
  · rename_i b rest hf
    by_cases hc : s.inp.count = 0xFFFFFFFF
    · exact .inr (.inl ⟨by simp [hf], hc, if_pos hc⟩)
    · exact .inl ⟨b, rest, hf, hc, if_neg hc⟩
  · rename_i hf
    cases he : s.eoiSeen
    · exact .inr (.inr (.inr ⟨hf, rfl, rfl⟩))
    · exact .inr (.inr (.inl ⟨hf, rfl, rfl⟩))

/-! ## The output path -/

/-- The three things an emit can do (R136). -/
theorem State.emit_cases (s : State) (b : Byte) (k : State → State) :
    (s.atLimit ∧ s.emit b k = s.fail .outLimit) ∨
    (¬ s.atLimit ∧ s.out.count = 0xFFFFFFFF ∧ s.emit b k = s.fail .countWrap) ∨
    (s.mayEmit ∧ s.emit b k = k { s with out := s.out.emitted b }) := by
  by_cases hl : s.atLimit
  · exact .inl ⟨hl, if_pos hl⟩
  · by_cases hc : s.out.count = 0xFFFFFFFF
    · exact .inr (.inl ⟨hl, hc, (if_neg hl).trans (if_pos hc)⟩)
    · exact .inr (.inr ⟨⟨hl, hc⟩, (if_neg hl).trans (if_neg hc)⟩)

theorem State.emit_mayEmit {s : State} (b : Byte) (k : State → State) (h : s.mayEmit) :
    s.emit b k = k { s with out := s.out.emitted b } :=
  (if_neg h.1).trans (if_neg h.2)

/-- An emit that raises nothing leaves the output side as R67, R114 and R136 say. -/
theorem Output.emitted_emits (o : Output) (b : Byte) (h : o.count ≠ 0xFFFFFFFF) : o.Emits b (o.emitted b) where
  fifo := rfl
  count := by
    have h1 := o.count.isLt
    have h2 : o.count.toNat ≠ 4294967295 := fun e => h (BitVec.eq_of_toNat_eq (by simpa using e))
    show (o.count + 1).toNat = _
    rw [BitVec.toNat_add, show (1 : Word).toNat = 1 from rfl]
    omega
  cell := Memory.read_write_same _ _ _
  others := fun a ha => Memory.read_write_other _ _ ha
  wp := by
    show (o.wp + 1).toNat = _
    rw [BitVec.toNat_add, show (1 : BitVec 15).toNat = 1 from rfl]
  hist := by
    show (BitVec.ofNat 16 (min (o.hist.toNat + 1) Config.wsize)).toNat = _
    simp only [BitVec.toNat_ofNat, Config.wsize]
    omega
  s1 := by
    show (BitVec.ofNat 16 ((o.s1.toNat + b.toNat) % Config.adlerMod)).toNat = _
    simp only [BitVec.toNat_ofNat, Config.adlerMod]
    omega
  s2 := by
    show (BitVec.ofNat 16 ((o.s2.toNat + (o.s1.toNat + b.toNat) % Config.adlerMod) % Config.adlerMod)).toNat =
      (o.s2.toNat + (BitVec.ofNat 16 ((o.s1.toNat + b.toNat) % Config.adlerMod)).toNat) % 65521
    simp only [BitVec.toNat_ofNat, Config.adlerMod]
    omega

/-- WinRead answers a byte only from a written cell of the history (R68). -/
theorem winRead_ok {o : Output} {d : Nat} {b : Byte} (h : winRead o d = .ok b) :
    1 ≤ d ∧ d ≤ o.hist.toNat ∧ Memory.read o.win (winCell o.wp d) = some b := by
  unfold winRead at h
  split at h
  · cases h
  · rename_i hd
    split at h
    · rename_i b' hb
      cases h
      exact ⟨by omega, by omega, hb⟩
    · cases h

theorem winRead_eq {o : Output} {d : Nat} {b : Byte} (h1 : 1 ≤ d) (h2 : d ≤ o.hist.toNat)
    (h : Memory.read o.win (winCell o.wp d) = some b) : winRead o d = .ok b := by
  rw [winRead, if_neg (by omega), h]

/-! ## Blocks, tables and code lengths -/

/-- The two ways a block ends (R118). -/
theorem State.blockEnd_cases (s : State) :
    (s.blk.bfinal = true ∧ s.blockEnd = s.alignToByte.goto .trailer) ∨
    (s.blk.bfinal = false ∧ s.blockEnd = s.goto .bhdr) := by
  cases h : s.blk.bfinal <;> simp [State.blockEnd, h]

/-- The three things Validate can do to CL_T and LL_T (R123). -/
theorem State.validate_cases (s : State) (t : Table) (o i : ErrCause) (k : State → State) :
    (t.left = none ∧ s.validate t o i k = s.fail o) ∨ (t.left = some 0 ∧ s.validate t o i k = k s) ∨
    (∃ n, t.left = some (n + 1) ∧ s.validate t o i k = s.fail i) := by
  unfold State.validate
  split
  · exact .inl ⟨‹_›, rfl⟩
  · exact .inr (.inl ⟨‹_›, rfl⟩)
  · exact .inr (.inr ⟨_, ‹_›, rfl⟩)

/-- What the build of D_T can do (R122, R123, R124). -/
theorem State.buildD_cases (s : State) (k : State → State) :
    let t := buildTable ((s.blk.lens.drop s.blk.nlen.toNat).take s.blk.ndist.toNat)
    let s1 : State := { s with tabs := { s.tabs with d := t } }
    (t.left = none ∧ s.buildD k = s1.fail .dOversub) ∨ (t.left = some 0 ∧ s.buildD k = k s1) ∨
    (∃ n, t.left = some (n + 1) ∧
      ((distException s.ctl.allow t = none ∧ s.buildD k = s1.fail .dIncomplete) ∨
       ∃ t', distException s.ctl.allow t = some t' ∧ s.buildD k = k { s1 with tabs := { s1.tabs with d := t' } })) := by
  intro t s1
  have e : s.buildD k = match t.left with
      | none => s1.fail .dOversub
      | some 0 => k s1
      | some (_ + 1) =>
        match distException s.ctl.allow t with
        | some t' => k { s1 with tabs := { s1.tabs with d := t' } }
        | none => s1.fail .dIncomplete := rfl
  rw [e]
  rcases t.left with _ | _ | n
  · exact .inl ⟨rfl, rfl⟩
  · exact .inr (.inl ⟨rfl, rfl⟩)
  · refine .inr (.inr ⟨n, rfl, ?_⟩)
    rcases distException s.ctl.allow t with _ | t'
    · exact .inl ⟨rfl, rfl⟩
    · exact .inr ⟨t', rfl, rfl⟩

/-- The two shapes an accepted incomplete distance set has (R124). -/
theorem distException_cases {allow : Bool} {t t' : Table} (h : distException allow t = some t') :
    allow = true ∧
    ((t.syms = [] ∧ t' = { t with empty := true }) ∨
     (t.syms.length = 1 ∧ t.countOf 1 = 1 ∧ t' = { t with single := true })) := by
  unfold distException at h
  split at h
  · rename_i h1
    simp only [Bool.and_eq_true, beq_iff_eq, List.length_eq_zero_iff] at h1
    cases h
    exact ⟨h1.1, .inl ⟨h1.2, rfl⟩⟩
  · split at h
    · rename_i h1
      simp only [Bool.and_eq_true, beq_iff_eq] at h1
      cases h
      exact ⟨h1.1.1, .inr ⟨h1.1.2, h1.2, rfl⟩⟩
    · cases h

@[simp] theorem setLens_length (ls : List (BitVec 4)) (i n : Nat) (v : BitVec 4) :
    (setLens ls i n v).length = ls.length := by
  induction n generalizing ls i with
  | zero => rfl
  | succ n ih => simp [setLens, ih]

/-- The entries setLens writes are those from i on, n of them (R131 to R134). -/
theorem setLens_getElem? (ls : List (BitVec 4)) (i n : Nat) (v : BitVec 4) (j : Nat) :
    (setLens ls i n v)[j]? = if i ≤ j ∧ j < i + n ∧ j < ls.length then some v else ls[j]? := by
  induction n generalizing ls i with
  | zero =>
    have : ¬ (i ≤ j ∧ j < i + 0 ∧ j < ls.length) := by omega
    rw [if_neg this]; rfl
  | succ n ih =>
    rw [setLens, ih, List.length_set, List.getElem?_set]
    by_cases h1 : i = j
    · subst h1
      by_cases h2 : i < ls.length
      · simp [h2]
      · simp [h2]
    · simp only [h1, if_false]
      by_cases h2 : i ≤ j ∧ j < i + (n + 1) ∧ j < ls.length
      · rw [if_pos h2, if_pos (by omega)]
      · rw [if_neg h2, if_neg (by omega)]

/-! ## The step -/

/-- A step that runs one row is that row's meaning. -/
theorem runAll_one (i : Instr) (s : State) : runAll [i] s = exec i s := by
  unfold runAll
  cases exec i s <;> rfl

theorem step_inf_nil {s : State} (h : s.agenda = []) : step s = infStep s := by
  simp [step, nextAction, h, infStep]

theorem step_inf_cons {s : State} {rest : List Turn} (h : s.agenda = .inf :: rest) :
    step s = infStep { s with agenda := rest } := by
  simp [step, nextAction, h, infStep]

theorem step_host {s : State} {a : Access} {rest : List Turn} (h : s.agenda = .host a :: rest) :
    step s = (hostAction a { s with agenda := rest }).out := by
  simp [step, nextAction, h]

theorem step_reset {s : State} {rest : List Turn} (h : s.agenda = .reset :: rest) :
    step s = .next { State.resetWith s.cfg with agenda := rest, rdata := s.rdata } := by
  simp [step, nextAction, h, resetAction, Action.out]

end Sys2Proof.Machine
end

