-- ==== Sys2Proof/Laws/Step.lean ====
section
/-! SUPPORT. What a step can do, said once: the turns of the agenda, INF's turn, and a host access's rows. -/

namespace Sys2Proof.Machine

/-- What a step can be: INF's turn, from the agenda or with an empty one; a host access; the reset input. -/
theorem step_cases {s t : State} (h : step s = .next t) :
    (s.agenda = [] ∧ infStep s = .next t) ∨
    (∃ rest, s.agenda = .inf :: rest ∧ infStep { s with agenda := rest } = .next t) ∨
    (∃ a rest is, s.agenda = .host a :: rest ∧ decodeHost s.cfg.blockBase a = .ok is ∧
      runAll is { s with agenda := rest } = .next t) ∨
    (∃ rest, s.agenda = .reset :: rest ∧ t = { State.resetWith s.cfg with agenda := rest, rdata := s.rdata }) := by
  match ha : s.agenda with
  | [] => exact .inl ⟨rfl, (step_inf_nil ha).symm.trans h⟩
  | .inf :: rest => exact .inr (.inl ⟨rest, rfl, (step_inf_cons ha).symm.trans h⟩)
  | .reset :: rest =>
    rw [step_reset ha] at h
    cases h
    exact .inr (.inr (.inr ⟨rest, rfl, rfl⟩))
  | .host a :: rest =>
    rw [step_host ha] at h
    match hd : decodeHost s.cfg.blockBase a with
    | .ok is =>
      refine .inr (.inr (.inl ⟨a, rest, is, rfl, hd, ?_⟩))
      simpa [hostAction, hd, Action.out] using h
    | .error e => simp [hostAction, hd, Action.out] at h

theorem infStep_running {s : State} (h : s.top = .running) : infStep s = (runningAction s).out := by
  simp [infStep, infAction, h]

theorem infStep_stopped {s : State} (h : s.top ≠ .running) : infStep s = .next s := by
  unfold infStep infAction
  split <;> simp_all [Action.out]

/-- What INF's turn can be (R13, R61, R125): nothing while not RUNNING; a fill or a hold; a code bit that ends no code;
INVALID_CODE; or the row its bits decode to. -/
theorem infStep_cases {s t : State} (h : infStep s = .next t) :
    (s.top ≠ .running ∧ t = s) ∨
    (s.top = .running ∧ ∃ c, s.ctx = some c ∧
      ((s.inp.cnt.toNat < c.need ∧ t = s.fill) ∨
       (c.need ≤ s.inp.cnt.toNat ∧
        ((∃ hc, decode c (s.peek c.need) = .error (.more hc) ∧ t = s.codeMore hc) ∨
         (∃ hc, decode c (s.peek c.need) = .error (.invalidCode hc) ∧ t = s.codeInvalid c.need hc) ∨
         ∃ i left, decode c (s.peek c.need) = .ok (i, left) ∧ exec i s = .next t)))) := by
  by_cases hr : s.top = .running
  · right
    refine ⟨hr, ?_⟩
    rw [infStep_running hr] at h
    unfold runningAction at h
    match hc : s.ctx with
    | none => simp [hc, Action.out] at h
    | some c =>
      refine ⟨c, rfl, ?_⟩
      simp only [hc] at h
      by_cases hn : s.inp.cnt.toNat < c.need
      · left
        rw [if_pos hn] at h
        cases h
        exact ⟨hn, rfl⟩
      · right
        refine ⟨Nat.not_lt.1 hn, ?_⟩
        rw [if_neg hn] at h
        unfold decodeAction at h
        match hd : decode c (s.peek c.need) with
        | .ok (i, left) =>
          simp only [hd, Action.out, runAll_one] at h
          exact .inr (.inr ⟨i, left, rfl, h⟩)
        | .error (.more hc') =>
          simp only [hd, Action.out] at h
          cases h
          exact .inl ⟨hc', rfl, rfl⟩
        | .error (.invalidCode hc') =>
          simp only [hd, Action.out] at h
          cases h
          exact .inr (.inl ⟨hc', rfl, rfl⟩)
        | .error .short => simp [hd, Action.out] at h
        | .error .noSymbol => simp [hd, Action.out] at h
  · exact .inl ⟨hr, by rw [infStep_stopped hr] at h; cases h; rfl⟩

/-- A run of rows that answers next ran its first row to a state the others ran from. -/
theorem runAll_cons {i : Instr} {is : List Instr} {s t : State} (h : runAll (i :: is) s = .next t) :
    ∃ u, exec i s = .next u ∧ runAll is u = .next t := by
  unfold runAll at h
  cases hx : exec i s <;> simp_all

theorem runAll_nil {s t : State} (h : runAll [] s = .next t) : t = s := by
  cases h
  rfl

/-- A relation that every row of a list keeps, and that composes, holds of the whole run. -/
theorem runAll_induct {R : State → State → Prop} (refl : ∀ s, R s s) (trans : ∀ s t u, R s t → R t u → R s u) :
    ∀ (is : List Instr) (s t : State), (∀ i ∈ is, ∀ u v, exec i u = .next v → R u v) →
      runAll is s = .next t → R s t
  | [], s, t, _, h => runAll_nil h ▸ refl s
  | i :: is, s, t, hr, h => by
    obtain ⟨u, hu, ht⟩ := runAll_cons h
    exact trans s u t (hr i (List.mem_cons_self) s u hu)
      (runAll_induct refl trans is u t (fun j hj => hr j (List.mem_cons_of_mem i hj)) ht)

/-- Every row a host access performs is a host row: one of the thirteen, and no stream row. -/
theorem decodeHost_rows {base : Nat} {a : Access} {is : List Instr} (h : decodeHost base a = .ok is) :
    ∀ i ∈ is, i = .abort ∨ i = .start ∨ i = .eoi ∨ (∃ v, i = .wrConfig v) ∨ (∃ v, i = .wrOutLimit v) ∨
      (∃ b, i = .push b) ∨ i = .crcInit ∨ (∃ b, i = .crcByte b) ∨ (∃ v, i = .wrCrcExpect v) ∨ i = .pop ∨
      i = .rdCrcValue ∨ i = .rdCrcStatus ∨ ∃ k, i = .rdReg k := by
  intro i hi
  unfold decodeHost at h
  split at h
  · split at h
    · cases h
    · cases h
      simp only [List.mem_singleton] at hi
      subst hi
      unfold readRow
      split <;> simp
  · split at h
    · cases h
    · cases h
      unfold writeRows at hi
      split at hi
      · simp only [ctrlRows, List.mem_append] at hi
        rcases hi with (hi | hi) | hi <;> split at hi <;> simp_all
      · simp_all
      · simp_all
      · simp_all
      · split at hi <;> simp_all
      · simp_all
      · simp_all
      · simp_all

end Sys2Proof.Machine
end

