-- ==== Sys2Proof/Tests/Slice0.lean ====
section
/-! SUPPORT. The model's own tests: the smoke test of WellFormed, words written out from 30_encoding.md and the opcode
table, single steps whose results 95_test_vectors.md or a rule gives, and a witness for each obligation's premises. -/

namespace Sys2Proof.Tests

open Sys2Proof.Machine

set_option Elab.async false

/-- n bits written as one binary number, the first stream bit leftmost, as R98 writes a row. -/
def word (n v : Nat) : List Bool := (List.range n).map fun k => v.testBit (n - 1 - k)

/-- INF is RUNNING at the first step of a phase, with these bits next (at most 16). -/
def here (p : Phase) (bits : List Bool) : State := (State.reset.at p).placeBits bits

/-- A field of the next state. -/
def after {A : Type} (o : Out) (f : State → A) : Option A :=
  match o with
  | .next t => some (f t)
  | .fault _ => none
  | .refused _ => none

/-- Each word, read in context c, is the row beside it, with these bits left over. -/
def reads (c : Ctx) (rows : List (List Bool × Instr × List Bool)) : Bool :=
  rows.all fun r => decide ((decode c r.1).toOption = some r.2)

/-! ## WellFormed refuses what is no instruction -/

theorem test_wf_copy_len_zero : (Instr.matchCopy 0 1).wf = false := by decide

theorem test_wf_copy_len_high : (Instr.matchCopy 259 1).wf = false ∧ (Instr.matchCopy 258 1).wf = true := by decide

theorem test_wf_copy_dist_zero : (Instr.matchCopy 3 0).wf = false := by decide

theorem test_wf_copy_dist_high : (Instr.matchCopy 3 32769).wf = false ∧ (Instr.matchCopy 3 32768).wf = true := by decide

theorem test_wf_read_pops : (Instr.rdReg 9).wf = false := by decide

theorem test_wf_read_crc : (Instr.rdReg 18).wf = false ∧ (Instr.rdReg 20).wf = false ∧ (Instr.rdReg 19).wf = true := by
  decide

/-! ## Every constructor's word, from the opcode table's encodings (R81 to R93, R98) -/

theorem test_decode_zhdr :
    reads .cmf [(word 8 0b00011110, .zhdrCmf 0x78, [])] = true ∧
    reads .flg [(word 8 0b10000000, .zhdrFlg 0x01, []), (word 8 0b01011011, .zhdrFlg 0xDA, [])] = true := by
  decide

theorem test_decode_bhdr :
    reads .bhdr
      [(word 3 0b100, .blockStored true, []), (word 3 0b010, .blockFixed false, []),
       (word 3 0b101, .blockDynamic true, []), (word 3 0b011, .blockReserved false, [])] = true := by
  decide

theorem test_decode_stored :
    reads .storedLen [(word 16 0b0100000000000000, .storedHdr (.len 2), [])] = true ∧
    reads .storedNlen [(word 16 0b1011111111111111, .storedHdr (.nlen 0xFFFD), [])] = true ∧
    reads .storedByte [(word 8 0b00010010, .storedByte 0x48, [])] = true := by
  decide

theorem test_decode_dyn_hdr :
    reads .hlit [(word 14 0b10000000000111, .dynHdr (.hlit 1), word 9 0b000000111)] = true ∧
    reads .hdist [(word 5 0b01000, .dynHdr (.hdist 2), [])] = true ∧
    reads .hclen [(word 4 0b0111, .dynHdr (.hclen 14), [])] = true ∧
    reads .clen [(word 3 0b110, .dynClen (.field 3), [])] = true ∧
    reads .clBuild [([], .dynClen .build, [])] = true ∧ reads .dynBuild [([], .dynBuild, [])] = true := by
  decide

/-- The code-length code with lengths 1 for symbol 0, 2 for 16, 3 for 17 and 18: codes 0, 10, 110 and 111 (R121). -/
def clTable : Table :=
  buildTable [1, 0, 0, 0, 0, 0, 0, 0, 0, 0, 0, 0, 0, 0, 0, 0, 2, 3, 3]

theorem test_decode_code_lengths :
    reads (.clSym clTable Hc.zero)
      [(word 1 0b0, .clLen 0, []), (word 4 0b1011, .clRep16 .code, word 2 0b11),
       (word 6 0b110100, .clZero17 .code, word 3 0b100), (word 3 0b111, .clZero18 .code, [])] = true ∧
    reads .rep16 [(word 2 0b10, .clRep16 (.extra 1), [])] = true ∧
    reads .zero17 [(word 3 0b001, .clZero17 (.extra 4), [])] = true ∧
    reads .zero18 [(word 7 0b1000001, .clZero18 (.extra 65), [])] = true := by
  decide

theorem test_decode_literals :
    reads (.llSym fixedLL Hc.zero)
      [(word 8 0b00110000, .lit (.code 0), []), (word 8 0b10111111, .lit (.code 143), []),
       (word 9 0b110010000, .lit (.code 144), []), (word 9 0b111111111, .lit (.code 255), []),
       (word 7 0b0000000, .eob, []), (word 8 0b11000110, .llReserved 0, []),
       (word 8 0b11000111, .llReserved 1, [])] = true ∧
    reads .litEmit [([], .lit .emit, [])] = true := by
  decide +kernel

/-- LEN_257 to LEN_271, each with its extra bits all 1 (R87, R91). -/
theorem test_decode_lengths_a :
    reads (.llSym fixedLL Hc.zero)
      [(word 7 0b0000001, .len257 .code, word 0 0b0),
       (word 7 0b0000010, .len258 .code, word 0 0b0),
       (word 7 0b0000011, .len259 .code, word 0 0b0),
       (word 7 0b0000100, .len260 .code, word 0 0b0),
       (word 7 0b0000101, .len261 .code, word 0 0b0),
       (word 7 0b0000110, .len262 .code, word 0 0b0),
       (word 7 0b0000111, .len263 .code, word 0 0b0),
       (word 7 0b0001000, .len264 .code, word 0 0b0),
       (word 8 0b00010011, .len265 .code, word 1 0b1),
       (word 8 0b00010101, .len266 .code, word 1 0b1),
       (word 8 0b00010111, .len267 .code, word 1 0b1),
       (word 8 0b00011001, .len268 .code, word 1 0b1),
       (word 9 0b000110111, .len269 .code, word 2 0b11),
       (word 9 0b000111011, .len270 .code, word 2 0b11),
       (word 9 0b000111111, .len271 .code, word 2 0b11)] = true := by
  decide +kernel

/-- LEN_272 to LEN_285 (R87, R91). -/
theorem test_decode_lengths_b :
    reads (.llSym fixedLL Hc.zero)
      [(word 9 0b001000011, .len272 .code, word 2 0b11),
       (word 10 0b0010001111, .len273 .code, word 3 0b111),
       (word 10 0b0010010111, .len274 .code, word 3 0b111),
       (word 10 0b0010011111, .len275 .code, word 3 0b111),
       (word 10 0b0010100111, .len276 .code, word 3 0b111),
       (word 11 0b00101011111, .len277 .code, word 4 0b1111),
       (word 11 0b00101101111, .len278 .code, word 4 0b1111),
       (word 11 0b00101111111, .len279 .code, word 4 0b1111),
       (word 12 0b110000001111, .len280 .code, word 4 0b1111),
       (word 13 0b1100000111111, .len281 .code, word 5 0b11111),
       (word 13 0b1100001011111, .len282 .code, word 5 0b11111),
       (word 13 0b1100001111111, .len283 .code, word 5 0b11111),
       (word 13 0b1100010011111, .len284 .code, word 5 0b11111),
       (word 8 0b11000101, .len285 .code, word 0 0b0)] = true := by
  decide +kernel

/-- DIST_0 to DIST_14, each with its extra bits all 1 (R88, R92). -/
theorem test_decode_distances_a :
    reads (.dSym fixedD Hc.zero)
      [(word 5 0b00000, .dist0 .code, word 0 0b0),
       (word 5 0b00001, .dist1 .code, word 0 0b0),
       (word 5 0b00010, .dist2 .code, word 0 0b0),
       (word 5 0b00011, .dist3 .code, word 0 0b0),
       (word 6 0b001001, .dist4 .code, word 1 0b1),
       (word 6 0b001011, .dist5 .code, word 1 0b1),
       (word 7 0b0011011, .dist6 .code, word 2 0b11),
       (word 7 0b0011111, .dist7 .code, word 2 0b11),
       (word 8 0b01000111, .dist8 .code, word 3 0b111),
       (word 8 0b01001111, .dist9 .code, word 3 0b111),
       (word 9 0b010101111, .dist10 .code, word 4 0b1111),
       (word 9 0b010111111, .dist11 .code, word 4 0b1111),
       (word 10 0b0110011111, .dist12 .code, word 5 0b11111),
       (word 10 0b0110111111, .dist13 .code, word 5 0b11111),
       (word 11 0b01110111111, .dist14 .code, word 6 0b111111)] = true := by
  decide +kernel

/-- DIST_15 to DIST_29 (R88, R92). -/
theorem test_decode_distances_b :
    reads (.dSym fixedD Hc.zero)
      [(word 11 0b01111111111, .dist15 .code, word 6 0b111111),
       (word 12 0b100001111111, .dist16 .code, word 7 0b1111111),
       (word 12 0b100011111111, .dist17 .code, word 7 0b1111111),
       (word 13 0b1001011111111, .dist18 .code, word 8 0b11111111),
       (word 13 0b1001111111111, .dist19 .code, word 8 0b11111111),
       (word 14 0b10100111111111, .dist20 .code, word 9 0b111111111),
       (word 14 0b10101111111111, .dist21 .code, word 9 0b111111111),
       (word 15 0b101101111111111, .dist22 .code, word 10 0b1111111111),
       (word 15 0b101111111111111, .dist23 .code, word 10 0b1111111111),
       (word 16 0b1100011111111111, .dist24 .code, word 11 0b11111111111),
       (word 16 0b1100111111111111, .dist25 .code, word 11 0b11111111111),
       (word 17 0b11010111111111111, .dist26 .code, word 12 0b111111111111),
       (word 17 0b11011111111111111, .dist27 .code, word 12 0b111111111111),
       (word 18 0b111001111111111111, .dist28 .code, word 13 0b1111111111111),
       (word 18 0b111011111111111111, .dist29 .code, word 13 0b1111111111111)] = true := by
  decide +kernel

/-- The extra bits of each length symbol, least significant first (R59, R91). -/
theorem test_decode_length_extra :
    reads (.lenExtra 257) [([], .len257 (.extra 0), [])] = true ∧
    reads (.lenExtra 258) [([], .len258 (.extra 0), [])] = true ∧
    reads (.lenExtra 259) [([], .len259 (.extra 0), [])] = true ∧
    reads (.lenExtra 260) [([], .len260 (.extra 0), [])] = true ∧
    reads (.lenExtra 261) [([], .len261 (.extra 0), [])] = true ∧
    reads (.lenExtra 262) [([], .len262 (.extra 0), [])] = true ∧
    reads (.lenExtra 263) [([], .len263 (.extra 0), [])] = true ∧
    reads (.lenExtra 264) [([], .len264 (.extra 0), [])] = true ∧
    reads (.lenExtra 265) [(word 1 0b1, .len265 (.extra 1), [])] = true ∧
    reads (.lenExtra 266) [(word 1 0b1, .len266 (.extra 1), [])] = true ∧
    reads (.lenExtra 267) [(word 1 0b1, .len267 (.extra 1), [])] = true ∧
    reads (.lenExtra 268) [(word 1 0b1, .len268 (.extra 1), [])] = true ∧
    reads (.lenExtra 269) [(word 2 0b10, .len269 (.extra 1), [])] = true ∧
    reads (.lenExtra 270) [(word 2 0b10, .len270 (.extra 1), [])] = true ∧
    reads (.lenExtra 271) [(word 2 0b10, .len271 (.extra 1), [])] = true ∧
    reads (.lenExtra 272) [(word 2 0b10, .len272 (.extra 1), [])] = true ∧
    reads (.lenExtra 273) [(word 3 0b100, .len273 (.extra 1), [])] = true ∧
    reads (.lenExtra 274) [(word 3 0b100, .len274 (.extra 1), [])] = true ∧
    reads (.lenExtra 275) [(word 3 0b100, .len275 (.extra 1), [])] = true ∧
    reads (.lenExtra 276) [(word 3 0b100, .len276 (.extra 1), [])] = true ∧
    reads (.lenExtra 277) [(word 4 0b1000, .len277 (.extra 1), [])] = true ∧
    reads (.lenExtra 278) [(word 4 0b1000, .len278 (.extra 1), [])] = true ∧
    reads (.lenExtra 279) [(word 4 0b1000, .len279 (.extra 1), [])] = true ∧
    reads (.lenExtra 280) [(word 4 0b1000, .len280 (.extra 1), [])] = true ∧
    reads (.lenExtra 281) [(word 5 0b10000, .len281 (.extra 1), [])] = true ∧
    reads (.lenExtra 282) [(word 5 0b10000, .len282 (.extra 1), [])] = true ∧
    reads (.lenExtra 283) [(word 5 0b10000, .len283 (.extra 1), [])] = true ∧
    reads (.lenExtra 284) [(word 5 0b10000, .len284 (.extra 1), [])] = true ∧
    reads (.lenExtra 285) [([], .len285 (.extra 0), [])] = true := by
  decide

/-- The extra bits of each distance symbol, least significant first (R59, R92). -/
theorem test_decode_distance_extra :
    reads (.distExtra 0) [([], .dist0 (.extra 0), [])] = true ∧
    reads (.distExtra 1) [([], .dist1 (.extra 0), [])] = true ∧
    reads (.distExtra 2) [([], .dist2 (.extra 0), [])] = true ∧
    reads (.distExtra 3) [([], .dist3 (.extra 0), [])] = true ∧
    reads (.distExtra 4) [(word 1 0b1, .dist4 (.extra 1), [])] = true ∧
    reads (.distExtra 5) [(word 1 0b1, .dist5 (.extra 1), [])] = true ∧
    reads (.distExtra 6) [(word 2 0b10, .dist6 (.extra 1), [])] = true ∧
    reads (.distExtra 7) [(word 2 0b10, .dist7 (.extra 1), [])] = true ∧
    reads (.distExtra 8) [(word 3 0b100, .dist8 (.extra 1), [])] = true ∧
    reads (.distExtra 9) [(word 3 0b100, .dist9 (.extra 1), [])] = true ∧
    reads (.distExtra 10) [(word 4 0b1000, .dist10 (.extra 1), [])] = true ∧
    reads (.distExtra 11) [(word 4 0b1000, .dist11 (.extra 1), [])] = true ∧
    reads (.distExtra 12) [(word 5 0b10000, .dist12 (.extra 1), [])] = true ∧
    reads (.distExtra 13) [(word 5 0b10000, .dist13 (.extra 1), [])] = true ∧
    reads (.distExtra 14) [(word 6 0b100000, .dist14 (.extra 1), [])] = true ∧
    reads (.distExtra 15) [(word 6 0b100000, .dist15 (.extra 1), [])] = true ∧
    reads (.distExtra 16) [(word 7 0b1000000, .dist16 (.extra 1), [])] = true ∧
    reads (.distExtra 17) [(word 7 0b1000000, .dist17 (.extra 1), [])] = true ∧
    reads (.distExtra 18) [(word 8 0b10000000, .dist18 (.extra 1), [])] = true ∧
    reads (.distExtra 19) [(word 8 0b10000000, .dist19 (.extra 1), [])] = true ∧
    reads (.distExtra 20) [(word 9 0b100000000, .dist20 (.extra 1), [])] = true ∧
    reads (.distExtra 21) [(word 9 0b100000000, .dist21 (.extra 1), [])] = true ∧
    reads (.distExtra 22) [(word 10 0b1000000000, .dist22 (.extra 1), [])] = true ∧
    reads (.distExtra 23) [(word 10 0b1000000000, .dist23 (.extra 1), [])] = true ∧
    reads (.distExtra 24) [(word 11 0b10000000000, .dist24 (.extra 1), [])] = true ∧
    reads (.distExtra 25) [(word 11 0b10000000000, .dist25 (.extra 1), [])] = true ∧
    reads (.distExtra 26) [(word 12 0b100000000000, .dist26 (.extra 1), [])] = true ∧
    reads (.distExtra 27) [(word 12 0b100000000000, .dist27 (.extra 1), [])] = true ∧
    reads (.distExtra 28) [(word 13 0b1000000000000, .dist28 (.extra 1), [])] = true ∧
    reads (.distExtra 29) [(word 13 0b1000000000000, .dist29 (.extra 1), [])] = true := by
  decide

theorem test_decode_reserved_distance :
    reads (.dSym fixedD Hc.zero) [(word 5 0b11110, .dReserved 0, []), (word 5 0b11111, .dReserved 1, [])] = true := by
  decide +kernel

theorem test_decode_match_trailer :
    reads (.copy 258 32768) [([], .matchCopy 258 32768, [])] = true ∧
    reads .trailer [(word 8 0b01001101, .trailer 0xB2, [])] = true := by
  decide

/-- Every host row's access, by offset and bit (R23, R24, R98), at a base address of 0x4000. -/
theorem test_decode_host_writes :
    ([(0x00, 1, [.start]), (0x00, 2, [.eoi]), (0x00, 4, [.abort]), (0x00, 7, [.abort, .start, .eoi]), (0x00, 8, []),
      (0x04, 3, [.wrConfig 3]), (0x1C, 9, [.wrOutLimit 9]), (0x20, 0x1AB, [.push 0xAB]), (0x40, 1, [.crcInit]),
      (0x40, 2, []), (0x44, 0x131, [.crcByte 0x31]), (0x4C, 5, [.wrCrcExpect 5]), (0x08, 1, []), (0x3C, 1, [])] :
      List (Nat × Word × List Instr)).all
      (fun r => decide ((decodeHost 0x4000 (.write (0x4000 + r.1) 4 r.2.1)).toOption = some r.2.2)) = true := by
  decide

theorem test_decode_host_reads :
    ([(0x24, .pop), (0x48, .rdCrcValue), (0x50, .rdCrcStatus), (0x08, .rdReg 2), (0x00, .rdReg 0), (0x7C, .rdReg 31)] :
      List (Nat × Instr)).all
      (fun r => decide ((decodeHost 0x4000 (.read (0x4000 + r.1) 4)).toOption = some [r.2])) = true := by
  decide

theorem test_decode_host_refuses :
    (decodeHost 0x4000 (.read 0x4002 4)).toOption = none ∧ (decodeHost 0x4000 (.read 0x4000 2)).toOption = none ∧
    (decodeHost 0x4000 (.read 0x4080 4)).toOption = none ∧ (decodeHost 0x4000 (.write 0x3FFC 4 0)).toOption = none := by
  decide

/-! ## Table words, and the step they stand for (log 13, log 14) -/

theorem test_table_words :
    decodeTableWord 8 0x10 = some (.zhdrCmf 0x08) ∧ decodeTableWord 32 1 = some .start ∧
    decodeTableWord 13 0x189F = some (.len284 .code) ∧ decodeTableWord 40 0xA400000000 = some .pop ∧
    decodeTableWord 40 0x1C00000007 = some (.wrOutLimit 7) := by
  decide +kernel

theorem test_table_word_runs :
    after (step (State.reset.withFetchWord 13 0x189F)) (fun t => (t.phase, t.copy.lSym)) = some (.lextra, 284) ∧
    after (step (State.reset.withFetchWord 32 1)) (fun t => t.top) = some .running := by
  decide +kernel

/-! ## Single steps -/

/-- `78 00`: 0x7800 mod 31 = 12 (95_test_vectors.md section 2.1). -/
theorem test_zhdr_fcheck :
    let s : State := { here .zhdr (natBits 8 0x00) with sub := 1, zl := { State.reset.zl with cmf := 0x78 } }
    after (step s) (fun t => (t.top, t.err.kind, t.err.cause)) = some (.failed, 1, 1) := by
  decide +kernel

/-- `88 98`: CINFO is the first check to fail (95_test_vectors.md section 2.1). -/
theorem test_zhdr_cinfo :
    let s : State := { here .zhdr (natBits 8 0x98) with sub := 1, zl := { State.reset.zl with cmf := 0x88 } }
    after (step s) (fun t => (t.top, t.err.kind, t.err.cause, t.zl.flg)) = some (.failed, 6, 3, 0x98) := by
  decide +kernel

theorem test_zhdr_cmf :
    after (step (here .zhdr (natBits 8 0x78))) (fun t => (t.zl.cmf, t.sub, t.inp.cnt)) = some (0x78, 1, 0) := by
  decide +kernel

/-- Byte 01 at a block header: stored and final, with 5 bits discarded (95_test_vectors.md section 2.2). -/
theorem test_block_stored :
    after (step (here .bhdr (natBits 8 0x01))) (fun t => (t.phase, t.blockWord, t.inp.cnt)) =
      some (.storedHdr, 1, 0) := by
  decide +kernel

/-- Byte 07: BTYPE_RESERVED with 5 bits left, BLOCK 7 (95_test_vectors.md section 2.2). -/
theorem test_block_reserved :
    after (step (here .bhdr (natBits 8 0x07))) (fun t => (t.errWord, t.blockWord, t.phase)) =
      some (0x00050505, 7, .bhdr) := by
  decide +kernel

theorem test_block_fixed :
    after (step (here .bhdr (natBits 8 0x03))) (fun t => (t.phase, t.tabs.ll == fixedLL, t.inp.cnt)) =
      some (Phase.sym, true, 5) := by
  decide +kernel

/-- NLEN 0xFEFD is not the complement of LEN 2 (95_test_vectors.md section 2.2). -/
theorem test_stored_nlen :
    let s : State := { here .storedHdr (natBits 16 0xFEFD) with sub := 1, blk := { State.reset.blk with storedRem := 2 } }
    after (step s) (fun t => (t.err.cause, t.phase)) = some (6, .storedHdr) := by
  decide +kernel

/-- The first byte of 'Hi': ADLER is 0x00490049 (95_test_vectors.md section 2.2). -/
theorem test_stored_byte :
    let s : State := { here .storedCopy (natBits 8 0x48) with blk := { State.reset.blk with storedRem := 2 } }
    after (step s) (fun t => (t.out.fifo, t.adler, t.blk.storedRem, t.phase)) =
      some ([0x48], 0x00490049, 1, .storedCopy) := by
  decide +kernel

theorem test_dyn_hdr_hlit :
    after (step (here .dynHdr (natBits 5 0x1D))) (fun t => (t.blk.nlen, t.sub)) = some (286, 1) := by
  decide +kernel

/-- HLIT = 30 gives NLEN 287: DYN_COUNTS, once HCLEN is read (R128). -/
theorem test_dyn_hdr_counts :
    let s : State :=
      { here .dynHdr (natBits 4 0) with sub := 2, blk := { State.reset.blk with nlen := 287, ndist := 1 } }
    after (step s) (fun t => (t.err.cause, t.blk.ncode, t.inp.cnt)) = some (7, 4, 0) := by
  decide +kernel

/-- The second length sent is that of symbol 17 (R90, R129). -/
theorem test_dyn_clen :
    let s : State := { here .dynCl (natBits 3 5) with blk := { State.reset.blk with ncode := 4, lenIdx := 1 } }
    after (step s) (fun t => (t.blk.clLens.getD 17 0, t.blk.lenIdx)) = some (5, 2) := by
  decide +kernel

/-- A repeat as the first length: REP_NO_PREV (R130). -/
theorem test_rep16_first :
    let s : State := { here .dynLens [] with blk := { State.reset.blk with nlen := 257, ndist := 1 } }
    after (exec (.clRep16 .code) s) (fun t => t.err.cause) = some 10 := by
  decide +kernel

/-- 3 + 1 copies of the previous length (R132). -/
theorem test_rep16 :
    let s : State :=
      { here .dynLens (natBits 2 1) with
        blk := { State.reset.blk with nlen := 257, ndist := 1, clSym := 16, lenIdx := 1, lens := [7, 0, 0, 0, 0, 0] } }
    after (step s) (fun t => (t.blk.lens, t.blk.lenIdx, t.blk.clSym)) = some ([7, 7, 7, 7, 7, 0], 5, 0) := by
  decide +kernel

/-- 11 + 127 zeros pass the 100th and last length: REP_OVERFLOW (R134). -/
theorem test_zero18_overflow :
    let s : State := { here .dynLens (natBits 7 127) with blk := { State.reset.blk with nlen := 100, clSym := 18 } }
    after (step s) (fun t => (t.err.cause, t.blk.lenIdx)) = some (11, 0) := by
  decide +kernel

/-- No code for symbol 256: NO_EOB, before any table is built (R135). -/
theorem test_dyn_build_no_eob :
    after (step (here .dynBuild [])) (fun t => (t.err.cause, t.phase)) = some (12, .dynBuild) := by
  decide +kernel

/-- The worked code of 95_test_vectors.md section 2.4: lengths 3 3 3 3 3 2 4 4. -/
theorem test_build :
    let t := buildTable [3, 3, 3, 3, 3, 2, 4, 4]
    t.syms = [5, 0, 1, 2, 3, 4, 6, 7] ∧ t.count.take 4 = [0, 1, 5, 2] ∧ t.left = some 0 ∧
    symBits t 0 = word 3 0b010 ∧ symBits t 7 = word 4 0b1111 ∧ symBits t 5 = word 2 0b00 := by
  decide +kernel

/-- The step of a literal's last code bit latches it and emits nothing (R137). -/
theorem test_lit_code :
    after (exec (.lit (.code 0x48)) (here .sym [true])) (fun t => (t.phase, t.copy.litByte, t.out.fifo, t.inp.cnt)) =
      some (.lit, 0x48, [], 0) := by
  decide +kernel

/-- The last length symbol: 258, no extra bits (R175). -/
theorem test_len285 :
    after (exec (.len285 (.extra 0)) (here .lextra [])) (fun t => (t.copy.pendLen, t.phase)) = some (258, .dist) := by
  decide +kernel

/-- Symbol 284 with extra value 31 is length 258 as well (R174). -/
theorem test_len284 :
    after (exec (.len284 (.extra 31)) (here .lextra (natBits 5 31))) (fun t => t.copy.pendLen) = some 258 := by
  decide +kernel

/-- Distance 1 with no history: DIST_TOO_FAR (R142). -/
theorem test_dist_too_far :
    after (exec (.dist0 (.extra 0)) (here .dextra [])) (fun t => (t.err.kind, t.err.cause)) = some (5, 20) := by
  decide +kernel

/-- The farthest distance, 32768 (R205). -/
theorem test_dist29 :
    let s : State :=
      { here .dextra (natBits 13 8191) with
        out := { State.reset.out with hist := 32768 }, copy := { State.reset.copy with pendLen := 3 } }
    after (exec (.dist29 (.extra 8191)) s) (fun t => (t.copy.dist, t.copy.len, t.phase)) = some (32768, 3, .copy) := by
  decide +kernel

/-- Two bytes 0x61, 0x62 have been emitted. -/
def two : Output := ((State.reset.out.emitted 0x61).emitted 0x62)

/-- ADLER of 'ab' is 0x012600C4 (95_test_vectors.md section 2.2). -/
theorem test_adler_ab : two.s1 = 0x00C4 ∧ two.s2 = 0x0126 ∧ two.wp = 2 ∧ two.hist = 2 := by decide +kernel

/-- A copy at distance 2 emits 'a' again (R143). -/
theorem test_match :
    let s : State := { here .copy [] with out := two, copy := { State.reset.copy with len := 3, dist := 2 } }
    after (step s) (fun t => (t.out.fifo, t.copy.len, t.phase)) = some ([0x61, 0x62, 0x61], 2, .copy) := by
  decide +kernel

/-- The last trailer byte of 'Hi' (95_test_vectors.md section 2.2): DONE. -/
theorem test_trailer :
    let s : State :=
      { here .trailer (natBits 8 0xB2) with
        out := { State.reset.out with s1 := 0x00B2, s2 := 0x00FB }
        zl := { State.reset.zl with trailerVal := 0x00FB00, trailerN := 3 } }
    after (step s) (fun t => (t.top, t.zl.trailerVal)) = some (.done, 0x00FB00B2) := by
  decide +kernel

theorem test_push_idle : after (exec (.push 0xAA) State.reset) (fun t => (t.inDrop, t.inp.fifo)) = some (true, []) := by
  decide +kernel

theorem test_pop :
    let s : State := { State.reset with out := { State.reset.out with fifo := [0x48, 0x69] } }
    after (exec .pop s) (fun t => (t.rdata, t.out.fifo)) = some (0x148, [0x69]) := by
  decide +kernel

/-- CRC-32 of '123456789' is 0xCBF43926 (95_test_vectors.md; R209). -/
theorem test_crc_check :
    let m : List Byte := [0x31, 0x32, 0x33, 0x34, 0x35, 0x36, 0x37, 0x38, 0x39]
    ~~~ crcFeed 0xFFFFFFFF m = 0xCBF43926 := by
  decide +kernel

/-- MATCH is 1 after reset: CRC_VALUE and CRC_EXPECT are both 0 (R41, R227; log 21). -/
theorem test_crc_match_reset : State.reset.crcMatch = true := by decide +kernel

/-- STATUS after reset is 0x20, ADLER 1, CRC_STATUS 1 (R227). -/
theorem test_reset_views :
    State.reset.readReg 2 = 0x20 ∧ State.reset.readReg 10 = 1 ∧ State.reset.readReg 20 = 1 := by
  decide +kernel

/-! ## Witnesses: for each obligation, a state and operands that meet its premises -/

theorem next_with {A : Type} {o : Out} {f : State → A} {a : A} (h : after o f = some a) : ∃ t, o = .next t ∧ f t = a := by
  cases o <;> simp_all [after]

theorem next_some {o : Out} (h : after o (fun _ => ()) = some ()) : ∃ t, o = .next t :=
  (next_with h).elim fun t ht => ⟨t, ht.1⟩

/-- The code of two symbols of one bit each. -/
def pair : Table := buildTable [1, 1]

/-- A stream in the middle of a copy: 'ab' is out, three bytes at distance 2 are to come. -/
def live : State :=
  { State.reset.at .copy with
    out := two, copy := { State.reset.copy with len := 3, dist := 2 }, tabs := ⟨pair, pair, pair⟩
    inp := { State.reset.inp with fifo := [0x00] } }

/-- A stream just started, with two bytes in IN_FIFO. -/
def fresh : State := { State.reset with top := .running, inp := { State.reset.inp with fifo := [0x78, 0x01] } }

/-- A state whose next turn is this access. -/
def asks (a : Access) (s : State) : State := { s with agenda := [.host a] }

theorem pair_formed (n : Nat) (h : 2 ≤ n) : pair.formed n where
  lengths := by decide +kernel
  total := by decide +kernel
  size := h
  symbols := by
    intro x hx
    have : x = 0 ∨ x = 1 := by simpa [show pair.syms = [0, 1] from by decide +kernel] using hx
    obtain rfl | rfl := this
    · exact Nat.lt_of_lt_of_le (by decide) h
    · exact Nat.lt_of_lt_of_le (by decide) h

theorem pair_codes : pair.codes where
  formed := pair_formed _ (by decide)
  nodup := by decide +kernel
  notOver := by decide +kernel
  notEmpty := rfl
  single := by decide

theorem zero_within (t : Table) : Hc.zero.within t where
  len := by decide
  index := by simp [Table.upTo, Hc.zero]
  first := by decide
  code := by decide

theorem live_reader : live.ReaderInv where
  cnt := by decide +kernel
  buf := by decide +kernel
  taken := by decide +kernel
  boundary := fun _ => .inl (by decide +kernel)

theorem live_window : live.WindowInv where
  form := by decide +kernel
  hist := by decide +kernel
  wp := by decide +kernel
  cells := by
    intro d h1 h2
    have h3 : d ≤ 2 := h2
    obtain rfl | rfl : d = 1 ∨ d = 2 := by omega
    · decide +kernel
    · decide +kernel

theorem live_stream : live.StreamInv where
  lens := by decide +kernel
  clLens := by decide +kernel
  clSym := fun _ => .inl rfl
  counts := fun _ h => absurd h (by decide)
  cl := fun _ h => absurd h (by decide)
  clHc := fun _ h => absurd h (by decide)
  ll := fun _ _ => ⟨pair_formed _ (by decide), pair_formed _ (by decide), by decide +kernel, by decide +kernel,
    .inl (by decide +kernel)⟩
  llHc := fun _ h => absurd h (by decide)
  dHc := fun _ h => absurd h (by decide)
  idle := fun _ _ _ _ => rfl
  waiting := fun _ h => absurd h (by decide)
  lSym := fun _ h => absurd h (by decide)
  pend := fun _ h => absurd h (by decide)
  dSym := fun _ h => absurd h (by decide)
  copy := fun _ _ => by decide +kernel

/-- StepKeepsInv, NoFaultUnderInv, InfStepProgresses: the invariant holds in the middle of a copy, and a step is taken. -/
theorem witness_inv : live.Inv ∧ live.top = .running ∧ live.held = false ∧
    (∃ t, step live = .next t) ∧ ∃ t, infStep live = .next t :=
  ⟨⟨live_reader, live_window, live_stream⟩, rfl, by decide +kernel, next_some (by decide +kernel),
    next_some (by decide +kernel)⟩

/-- StepKeepsReader, StepKeepsFifosSumsErrors, InfReadsInOrder. -/
theorem witness_invariants : live.ReaderInv ∧ live.FifoInv ∧ live.AdlerInv ∧ live.ErrInv ∧ ∃ t, step live = .next t :=
  ⟨live_reader, ⟨by decide +kernel, by decide +kernel⟩, ⟨by decide +kernel, by decide +kernel⟩,
    ⟨fun _ => rfl, fun h => absurd h (by decide)⟩, next_some (by decide +kernel)⟩

/-- StreamEndsOrHolds. -/
theorem witness_fresh : fresh.Inv ∧ fresh.top = .running ∧ fresh.agenda = [] ∧ fresh.phase = .zhdr ∧ fresh.inp.cnt = 0 := by
  refine ⟨⟨⟨by decide +kernel, by decide +kernel, by decide +kernel, fun _ => .inl (by decide +kernel)⟩,
    ⟨by decide +kernel, by decide +kernel, by decide +kernel, ?_⟩, ?_⟩, rfl, rfl, rfl, rfl⟩
  · intro d h1 h2
    have h3 : d ≤ 0 := h2
    omega
  · constructor
    case lens => decide +kernel
    case clLens => decide +kernel
    case clSym => exact fun _ => .inl rfl
    case idle => exact fun _ _ _ _ => rfl
    all_goals exact fun _ h => absurd h (by decide)

/-- OverlappingCopy and WindowHoldsHistory: 'ab' is in the window. -/
theorem witness_holds : live.out.holds [0x61, 0x62] ∧ live.copy.len.toNat = 3 ∧ live.copy.dist.toNat = 2 ∧
    live.out.fifo.length + 3 ≤ live.cfg.outDepth ∧ live.ctl.lim = 0 ∧ live.agenda = [] ∧ live.phase = .copy ∧
    ∃ t, infStep live = .next t := by
  refine ⟨⟨by decide +kernel, by decide +kernel, by decide +kernel, ?_⟩, by decide +kernel, by decide +kernel,
    by decide +kernel, rfl, rfl, rfl, next_some (by decide +kernel)⟩
  intro d h1 h2
  have h3 : d ≤ 2 := h2
  obtain rfl | rfl : d = 1 ∨ d = 2 := by omega
  · decide +kernel
  · decide +kernel

/-- HostAndInfCommute. -/
theorem witness_commute : live.top = .running ∧ live.held = false ∧
    (∃ t, infStep live = .next t ∧ t.top = .running) ∧ live.eoiSeen = false ∧
    live.inp.fifo.length < live.cfg.inDepth ∧ live.out.fifo ≠ [] ∧ (∃ u, exec (.push 1) live = .next u) ∧
    (∃ u, exec .eoi live = .next u) ∧ ∃ u, exec .pop live = .next u :=
  ⟨rfl, by decide +kernel, next_with (by decide +kernel), rfl, by decide +kernel, by decide +kernel,
    next_some (by decide +kernel), next_some (by decide +kernel), next_some (by decide +kernel)⟩

/-- StreamDecodeInvertsEncode: a code, the longest extra field, and a step of no bits. -/
theorem witness_stream_decode :
    let ts : Tables := ⟨pair, pair, pair⟩
    ts.cl.codes ∧ ts.ll.codes ∧ ts.d.codes ∧
    (Instr.lit (.code 1)).wf = true ∧ (Instr.lit (.code 1)).ctx ts = some (.llSym pair Hc.zero) ∧
    encode ts (.lit (.code 1)) ≠ [] ∧
    (Instr.dist29 (.extra 8191)).ctx ts = some (.distExtra 29) ∧ encode ts (.dist29 (.extra 8191)) ≠ [] ∧
    (Instr.matchCopy 258 32768).wf = true ∧ (Ctx.copy 258 32768).need = 0 :=
  ⟨pair_codes, pair_codes, pair_codes, rfl, rfl, by decide +kernel, rfl, by decide +kernel, by decide, rfl⟩

/-- HostDecodeInvertsEncode: the highest register and a pushed byte. -/
theorem witness_host_decode :
    (Instr.rdReg 31).wf = true ∧ encodeHost 0x4000 (.rdReg 31) = some (.read 0x407C 4) ∧
    encodeHost 0x4000 (.push 0xFF) = some (.write 0x4020 4 0xFF) := by
  decide

/-- A complete set whose longest codes have 15 bits. -/
def longLens : List (BitVec 4) := [1, 2, 3, 4, 5, 6, 7, 8, 9, 10, 11, 12, 13, 14, 15, 15]

/-- CanonicalCodesDecode and CompleteCodesDecode, at the shortest and the longest code. -/
theorem witness_codes : longLens.length ≤ 288 ∧ (buildTable longLens).left = some 0 ∧ longLens.getD 0 0 ≠ 0 ∧
    longLens.getD 15 0 ≠ 0 ∧ 15 < longLens.length ∧ canonicalCode longLens 15 = 0b111111111111111 ∧
    15 ≤ (word 15 0).length := by
  decide +kernel

/-- MatchNotationRuns, at both ends of each range. -/
theorem witness_match_rows :
    let s : State := { State.reset.at .sym with out := { State.reset.out with hist := 32768 } }
    s.top = .running ∧ 32768 ≤ s.out.hist.toNat ∧
    matchRows 3 1 = some [.len257 .code, .len257 (.extra 0), .dist0 .code, .dist0 (.extra 0)] ∧
    matchRows 258 32768 = some [.len285 .code, .len285 (.extra 0), .dist29 .code, .dist29 (.extra 8191)] := by
  decide +kernel

/-- BuildAndKraftCheck: an over-subscribed, a complete and an incomplete set. -/
theorem witness_kraft : (buildTable [1, 1, 15]).left = none ∧ (buildTable longLens).left = some 0 ∧
    (buildTable [1]).left = some 16384 ∧ (buildTable []).left = some 32768 := by
  decide +kernel

/-- StepRunsDecoded: an INF turn from the agenda and from an empty one, and a host turn. -/
theorem witness_step :
    let s := here .bhdr (natBits 8 7)
    let r : State := asks (.write 0x20 4 0x1AB) State.reset
    s.top = .running ∧ s.agenda = [] ∧ s.ctx = some .bhdr ∧ Ctx.bhdr.need ≤ s.inp.cnt.toNat ∧
    (decode .bhdr (s.peek 3)).toOption = some (.blockReserved true, []) ∧
    { s with agenda := [.inf] }.agenda = [.inf] ∧
    r.agenda = [.host (.write 0x20 4 0x1AB)] ∧
    (decodeHost r.cfg.blockBase (.write 0x20 4 0x1AB)).toOption = some [.push 0xAB] := by
  decide +kernel

/-- CtrlPerformsInOrder, with all three bits and with none, and the read. -/
theorem witness_ctrl :
    (asks (.write 0 4 7) live).agenda = [.host (.write live.cfg.blockBase 4 7)] ∧
    (asks (.write 0 4 0) live).agenda = [.host (.write live.cfg.blockBase 4 0)] ∧
    (asks (.read 0 4) live).agenda = [.host (.read live.cfg.blockBase 4)] := by
  decide +kernel

/-- FillStep's four cases at a block header with no bit in BITBUF. -/
theorem witness_fill :
    let s := here .bhdr []
    let b : State := { s with inp := { s.inp with fifo := [1] } }
    let w : State := { s with inp := { s.inp with fifo := [1], count := 0xFFFFFFFF } }
    let e : State := { s with eoiSeen := true }
    s.agenda = [] ∧ s.top = .running ∧ s.ctx = some .bhdr ∧ s.inp.cnt.toNat < Ctx.bhdr.need ∧
    (b.inp.fifo = [1] ∧ b.inp.count ≠ 0xFFFFFFFF) ∧ (w.inp.fifo ≠ [] ∧ w.inp.count = 0xFFFFFFFF) ∧
    (e.inp.fifo = [] ∧ e.eoiSeen = true) ∧ s.inp.fifo = [] ∧ s.eoiSeen = false := by
  decide +kernel

/-- A one-symbol table that START let in (R124). -/
def oneSym : Table := { buildTable [1] with single := true }

/-- CodeBitStep: a bit that ends no code, the bit SINGLE stops on, the 15th bit, and the EMPTY table. -/
theorem witness_code_bit :
    let t := buildTable [1, 15]
    let s : State := { here .dist [true] with tabs := ⟨t, t, t⟩ }
    let l : State := { s with hc := { code := 32766, first := 16384, index := 1, len := 14 } }
    let o : State := { s with tabs := ⟨t, t, oneSym⟩ }
    let e : State := { s with tabs := ⟨t, t, { t with empty := true }⟩ }
    (s.ready 1 ∧ s.ctx = some (.dSym t s.hc) ∧ s.hc.within t ∧ emptyStop t s.hc = false ∧ s.hc.first.toNat + t.countOf 1 ≤ 1 ∧
      t.single = false) ∧
    (l.ready 1 ∧ l.ctx = some (.dSym t l.hc) ∧ l.hc.within t ∧ l.hc.first.toNat + t.countOf 15 ≤ 32767) ∧
    (o.ready 1 ∧ o.ctx = some (.dSym oneSym o.hc) ∧ o.hc.within oneSym ∧ oneSym.single = true ∧ oneSym.countOf 1 ≤ 1) ∧
    e.tabs.d.empty = true ∧ e.hc.len = 0 ∧ e.phase = .dist := by
  refine ⟨⟨⟨rfl, by decide +kernel⟩, rfl, zero_within _, by decide +kernel, by decide +kernel, rfl⟩,
    ⟨⟨rfl, by decide +kernel⟩, rfl, ⟨by decide +kernel, by decide +kernel, by decide +kernel, by decide +kernel⟩,
      by decide +kernel⟩,
    ⟨⟨rfl, by decide +kernel⟩, rfl, zero_within _, rfl, by decide +kernel⟩, rfl, rfl, rfl⟩

/-- OnlyBadAccessesRefused: the last good word, and accesses past it, misaligned and short. -/
theorem witness_refused :
    after (step (asks (.read 0x7C 4) State.reset)) (fun t => t.rdata) = some 0 ∧
    step (asks (.read 0x80 4) State.reset) = .refused (.access .outside) ∧
    step (asks (.read 0x7E 4) State.reset) = .refused (.access .misaligned) ∧
    step (asks (.write 0x7C 2 0) State.reset) = .refused (.access .notAWord) :=
  ⟨by decide +kernel, rfl, rfl, rfl⟩

/-- ZlibHeader: a header of each kind (95_test_vectors.md section 2.1). -/
theorem witness_zlib :
    (here .zhdr (natBits 8 0x78)).ready 8 ∧
    ((256 * 0x78 + 0x01) % 31 = 0 ∧ (0x01 : Byte).getLsbD 5 = false) ∧ (256 * 0x78 + 0x00) % 31 ≠ 0 ∧
    ((256 * 0x79 + 0x18) % 31 = 0 ∧ 0x79 % 16 ≠ 8) ∧ ((256 * 0x88 + 0x98) % 31 = 0 ∧ ¬ 0x88 / 16 ≤ 7) ∧
    (256 * 0x78 + 0xBB) % 31 = 0 ∧ (0xBB : Byte).getLsbD 5 = true :=
  ⟨⟨rfl, by decide +kernel⟩, by decide⟩

/-- The rows that need 1, 3, 8 and 16 bits, or the widest fields. -/
theorem witness_ready : (here .sym [true]).ready 1 ∧ (here .bhdr (natBits 3 7)).ready 3 ∧
    (here .trailer (natBits 8 0)).ready 8 ∧ (here .storedHdr (natBits 16 0)).ready 16 ∧
    (here .dextra (natBits 13 0)).ready 13 ∧ (here .dynHdr (natBits 5 31)).ready 5 ∧ (here .lextra []).ready 0 :=
  ⟨⟨rfl, by decide +kernel⟩, ⟨rfl, by decide +kernel⟩, ⟨rfl, by decide +kernel⟩, ⟨rfl, by decide +kernel⟩,
    ⟨rfl, by decide +kernel⟩, ⟨rfl, by decide +kernel⟩, ⟨rfl, by decide +kernel⟩⟩

/-- StoredBlockRows: NLEN right and wrong, LEN 0 and not, and a byte that may be emitted. -/
theorem witness_stored :
    let s : State := { here .storedCopy (natBits 8 1) with blk := { State.reset.blk with storedRem := 1 } }
    (0xFFFF : BitVec 16).toNat + 0xFFFF ≠ 65535 ∧ (0xFFFF : BitVec 16).toNat + 0 = 65535 ∧
    (1 : BitVec 16).toNat + 65534 = 65535 ∧ s.ready 8 ∧ s.canEmit ∧ s.mayEmit ∧ 1 ≤ s.blk.storedRem.toNat :=
  ⟨by decide, by decide, by decide, ⟨rfl, by decide +kernel⟩,
    by unfold State.canEmit; decide +kernel, by unfold State.mayEmit State.atLimit; decide +kernel, by decide +kernel⟩

/-- LiteralLatchesThenEmits and CopyEmitsWindowByte; a copy may emit, and its cell holds 'a'. -/
theorem witness_copy : live.top = .running ∧ live.canEmit ∧ live.mayEmit ∧ 2 ≤ live.out.hist.toNat ∧
    Memory.read live.out.win ((live.out.wp.toNat + 32768 - 2) % 32768) = some 0x61 :=
  ⟨rfl, by unfold State.canEmit; decide +kernel, by unfold State.mayEmit State.atLimit; decide +kernel,
    by decide +kernel, by decide +kernel⟩

/-- A stored byte to copy, its 8 bits in BITBUF, after 'ab'. -/
def storing : State :=
  { here .storedCopy (natBits 8 1) with out := two, blk := { State.reset.blk with storedRem := 2 } }

/-- EmitStepsStopOrWait: OUT_FIFO full, the limit reached, and the count at its end, each with the 8 bits of a stored byte
in BITBUF. -/
theorem witness_emit_stops :
    let full : State := { storing with cfg := { storing.cfg with outDepth := 2 } }
    let limit : State := { storing with ctl := { storing.ctl with lim := 2 } }
    let wrap : State := { storing with out := { two with count := 0xFFFFFFFF } }
    (full.ready 8 ∧ ¬ full.canEmit) ∧ (limit.ready 8 ∧ limit.canEmit ∧ limit.atLimit) ∧
    (wrap.ready 8 ∧ wrap.canEmit ∧ ¬ wrap.atLimit ∧ wrap.out.count = 0xFFFFFFFF) := by
  unfold State.ready State.canEmit State.atLimit
  decide +kernel

/-- EmitStepsStopOrWait for MATCH: a readable cell at the limit and at the end of the count, a distance past the history,
and a cell with no value. -/
theorem witness_match_stops :
    let limit : State := { live with ctl := { live.ctl with lim := 2 } }
    let wrap : State := { live with out := { two with count := 0xFFFFFFFF } }
    let bare : State := { live with out := { two with win := [] } }
    (limit.canEmit ∧ limit.atLimit ∧ (Memory.read limit.out.win (winCell limit.out.wp 2)).isSome = true) ∧
    (wrap.canEmit ∧ ¬ wrap.atLimit ∧ (Memory.read wrap.out.win (winCell wrap.out.wp 2)).isSome = true) ∧
    (live.canEmit ∧ live.out.hist.toNat < 3) ∧
    bare.canEmit ∧ 2 ≤ bare.out.hist.toNat ∧ Memory.read bare.out.win (winCell bare.out.wp 2) = none := by
  unfold State.canEmit State.atLimit
  decide +kernel

/-- DistanceSymbolsComplete: a distance that just reaches, and one that does not. -/
theorem witness_distance : 24577 + (8191 : BitVec 13).toNat ≤ (32768 : BitVec 16).toNat ∧
    (32767 : BitVec 16).toNat < 24577 + (8191 : BitVec 13).toNat := by
  decide

/-- DynamicCounts: counts at and past their limits. -/
theorem witness_counts : (286 : BitVec 9).toNat ≤ 286 ∧ (30 : BitVec 6).toNat ≤ 30 ∧ 286 < (287 : BitVec 9).toNat ∧
    30 < (31 : BitVec 6).toNat ∧ (here .dynHdr (natBits 4 0)).ready 4 :=
  ⟨by decide, by decide, by decide, by decide, rfl, by decide +kernel⟩

/-- CodeLengthCode: the last entry of CL_ORDER, and sets that are complete, over-subscribed and incomplete. -/
theorem witness_clens :
    let s : State := { here .dynCl (natBits 3 7) with blk := { State.reset.blk with ncode := 19, lenIdx := 18 } }
    s.blk.lenIdx.toNat < 19 ∧ clOrder[s.blk.lenIdx.toNat]? = some 15 ∧ s.blk.clLens.length = 19 ∧
    (buildTable [1, 1]).left = some 0 ∧ (buildTable [1, 1, 1]).left = none ∧ (buildTable [7]).left = some (32511 + 1) := by
  decide +kernel

/-- CodeLengthSymbols: the last length of a block, and a first one. -/
theorem witness_code_symbols :
    let s : State := { here .dynLens [true] with blk := { State.reset.blk with nlen := 257, ndist := 1, lenIdx := 257 } }
    s.ready 1 ∧ s.blk.lenIdx.toNat < s.blk.nlen.toNat + s.blk.ndist.toNat ∧ s.blk.lenIdx ≠ 0 ∧ State.reset.blk.lenIdx = 0 :=
  ⟨⟨rfl, by decide +kernel⟩, by decide +kernel, by decide +kernel, rfl⟩

/-- CodeLengthRepeats: a repeat that just fits, and the next longer one. -/
theorem witness_repeats :
    let s : State := { here .dynLens (natBits 7 127) with blk := { State.reset.blk with nlen := 286, ndist := 30, lenIdx := 178 } }
    s.ready 7 ∧ s.blk.lenIdx.toNat + (11 + (127 : BitVec 7).toNat) ≤ s.blk.nlen.toNat + s.blk.ndist.toNat ∧
    s.blk.nlen.toNat + s.blk.ndist.toNat < s.blk.lenIdx.toNat + (11 + (127 : BitVec 7).toNat) + 1 ∧
    s.blk.nlen.toNat + s.blk.ndist.toNat ≤ 316 ∧ s.blk.lens.length = 320 ∧ 1 ≤ s.blk.lenIdx.toNat ∧
    s.blk.lens[s.blk.lenIdx.toNat - 1]? = some 0 :=
  ⟨⟨rfl, by decide +kernel⟩, by decide +kernel⟩

/-- The lengths of a dynamic block: one bit for symbols 255 and 256, and these distance lengths. -/
def dynLensOf (ds : List (BitVec 4)) : List (BitVec 4) := List.replicate 255 0 ++ [1, 1] ++ ds

/-- DynamicBuild: every shape of the two sets. -/
theorem witness_dyn_build :
    (dynLensOf [1, 1]).getD 256 0 ≠ 0 ∧ State.reset.blk.lens.getD 256 0 = 0 ∧
    (buildTable ((dynLensOf [1, 1]).take 257)).left = some 0 ∧
    (buildTable [1, 1]).left = some 0 ∧ (buildTable [0]).syms = [] ∧
    ((buildTable [1]).syms.length = 1 ∧ (buildTable [1]).countOf 1 = 1 ∧ (buildTable [1]).left = some (16383 + 1)) ∧
    ((buildTable [2]).left = some (24575 + 1) ∧ (buildTable [2]).syms ≠ [] ∧ (buildTable [2]).countOf 1 ≠ 1) ∧
    (buildTable [1, 1, 1]).left = none ∧ (buildTable (List.replicate 256 0 ++ [1])).left = some (16383 + 1) := by
  decide +kernel

/-- TrailerByte: the first and the fourth byte. -/
theorem witness_trailer : (0 : BitVec 3).toNat < 3 ∧ (3 : BitVec 3).toNat < 4 ∧ ¬ (3 : BitVec 3).toNat < 3 ∧
    (here .trailer (natBits 8 0)).ready 8 :=
  ⟨by decide, by decide, by decide, rfl, by decide +kernel⟩

/-- EoiPushAndRegisterWrites and HostReads: PUSH in its four cases, EOI in its two, POP in its two. -/
theorem witness_data :
    let full : State := { fresh with cfg := { fresh.cfg with inDepth := 2 } }
    let late : State := { fresh with eoiSeen := true }
    State.reset.top ≠ .running ∧ (late.top = .running ∧ late.eoiSeen = true) ∧
    (full.top = .running ∧ full.eoiSeen = false ∧ full.inp.fifo.length = full.cfg.inDepth) ∧
    (fresh.inp.fifo.length ≠ fresh.cfg.inDepth) ∧ two.fifo = [0x61, 0x62] ∧ State.reset.out.fifo = [] := by
  decide +kernel

/-- HostReads: levels that fit, and registers of each kind. -/
theorem witness_registers : live.inp.fifo.length ≤ 65535 ∧ live.out.fifo.length ≤ 65535 ∧
    live.readReg 12 = 0x00020001 ∧ live.readReg 31 = 0 := by
  decide +kernel

/-- StatusFields: writes to the first and the last register that ignores them. -/
theorem witness_status :
    Config.standard.wf = true ∧ (2 : Nat) < 32 ∧ 2 ∉ [0, 1, 7, 8, 16, 17, 19] ∧ 31 ∉ [0, 1, 7, 8, 16, 17, 19] ∧
    (asks (.write 0x08 4 1) live).agenda = [.host (.write (live.cfg.blockBase + 4 * 2) 4 1)] ∧
    (asks (.write 0x7C 4 1) live).agenda = [.host (.write (live.cfg.blockBase + 4 * 31) 4 1)] := by
  decide +kernel

/-- AdlerLaw. -/
theorem witness_adler : State.reset.out.s1 = 1 ∧ State.reset.out.s2 = 0 := by decide

/-- StateTransitions: START, ABORT and reset each change STATE, and so does the trailer (`test_trailer`). -/
theorem witness_transitions :
    after (step (asks (.write 0 4 1) State.reset)) (fun t => t.top) = some .running ∧
    after (step (asks (.write 0 4 4) live)) (fun t => t.top) = some .idle ∧
    after (step { live with agenda := [.reset] }) (fun t => t.top) = some .idle := by
  decide +kernel

/-- ErrorEntryIsPrecise. -/
theorem witness_error : ∃ t, step (here .bhdr (natBits 8 7)) = .next t ∧ t.top = .failed :=
  next_with (f := fun t => t.top) (by decide +kernel)

/-- EndedStreamStays: INF's turn, and a host access that is neither START nor ABORT. -/
theorem witness_ended :
    State.reset.top ≠ .running ∧ { State.reset with agenda := [.inf] }.agenda = [.inf] ∧
    (∃ t, step (asks (.write 0 4 2) State.reset) = .next t) ∧
    (2 : Word).getLsbD 0 = false ∧ (2 : Word).getLsbD 2 = false :=
  ⟨by decide, rfl, next_some (by decide +kernel), by decide, by decide⟩

/-- HoldsOnlyWait: a hold for input, a hold for output, and no hold. -/
theorem witness_holds_wait :
    (here .bhdr []).holdIn = true ∧ { live with cfg := { live.cfg with outDepth := 2 } }.holdOut = true ∧
    live.held = false ∧ ∃ t, infStep live = .next t :=
  ⟨by decide +kernel, by decide +kernel, by decide +kernel, next_some (by decide +kernel)⟩

/-- UnitsShareNothing, LatchesChangeOnlyAtStart, WindowIsPrivate, ReadsHaveNoSideEffect, NonEmittingFrame. -/
theorem witness_frames :
    (∃ t, infStep live = .next t) ∧ (∃ t, exec .crcInit live = .next t) ∧
    (∃ t, step (asks (.write 0 4 1) live) = .next t) ∧ (5 : Nat) ≠ live.out.wp.toNat ∧
    (∃ t, step (asks (.read 0x24 4) live) = .next t) ∧ (∃ t, step (asks (.read 0x20 4) live) = .next t) ∧
    ∃ t, exec .eob (here .sym [false]) = .next t :=
  ⟨next_some (by decide +kernel), next_some (by decide +kernel), next_some (by decide +kernel), by decide +kernel,
    next_some (by decide +kernel), next_some (by decide +kernel), next_some (by decide +kernel)⟩

/-- AlignedPhasesStartAligned: a final stored block's header, read from the byte 01. -/
theorem witness_aligned :
    let s : State := { here .bhdr (natBits 8 1) with inp := { (here .bhdr (natBits 8 1)).inp with count := 1 } }
    s.ReaderInv ∧ ∃ t, infStep s = .next t ∧ t.phase = .storedHdr :=
  ⟨⟨by decide +kernel, by decide +kernel, by decide +kernel, fun _ => .inr ⟨.bhdr, rfl, by decide +kernel⟩⟩,
    next_with (f := fun t => t.phase) (by decide +kernel)⟩

/-- InterruptLine and ResetViews. -/
theorem witness_irq_reset :
    (2 : Word).getLsbD 0 = false ∧ (∃ t, exec .start live = .next t) ∧ (∃ t, exec .abort live = .next t) ∧
    (∃ t, exec (.wrConfig 2) live = .next t) ∧ (∃ t, step { live with agenda := [.reset] } = .next t) ∧
    live.cfg.wf = true :=
  ⟨by decide, next_some (by decide +kernel), next_some (by decide +kernel), next_some (by decide +kernel),
    next_some (by decide +kernel), by decide⟩

/-- InstancesIndependent: two blocks, one of which steps. -/
theorem witness_instances : (systemStep 0 [live, State.reset]).isSome = true ∧ (1 : Nat) ≠ 0 ∧
    ([live, live] : List State)[0]? = [live, State.reset][0]? := by
  decide +kernel


end Sys2Proof.Tests
end

section
/-! PROOF. INF's turn in each of its cases, as an equation: the other direction of `infStep_cases`. -/

namespace Sys2Proof.Machine

theorem infStep_fill {s : State} {c : Ctx} (hr : s.top = .running) (hc : s.ctx = some c)
    (hn : s.inp.cnt.toNat < c.need) : infStep s = .next s.fill := by
  simp [infStep_running hr, runningAction, hc, hn, Action.out]

theorem infStep_decode {s : State} {c : Ctx} (hr : s.top = .running) (hc : s.ctx = some c)
    (hn : c.need ≤ s.inp.cnt.toNat) : infStep s = (decodeAction s c).out := by
  simp [infStep_running hr, runningAction, hc, Nat.not_lt.2 hn]

theorem decodeAction_more {s : State} {c : Ctx} {hc : Hc} (hd : decode c (s.peek c.need) = .error (.more hc)) :
    (decodeAction s c).out = .next (s.codeMore hc) := by
  simp [decodeAction, hd, Action.out]

theorem decodeAction_invalid {s : State} {c : Ctx} {hc : Hc}
    (hd : decode c (s.peek c.need) = .error (.invalidCode hc)) :
    (decodeAction s c).out = .next (s.codeInvalid c.need hc) := by
  simp [decodeAction, hd, Action.out]

theorem decodeAction_row {s : State} {c : Ctx} {i : Instr} {left : List Bool}
    (hd : decode c (s.peek c.need) = .ok (i, left)) : (decodeAction s c).out = exec i s := by
  simp [decodeAction, hd, Action.out, runAll_one]

/-- A host access that decodes to rows runs them from a state that only lost the turn (R24, R74). -/
theorem step_host_rows {s : State} {a : Access} {rest : List Turn} {is : List Instr}
    (ha : s.agenda = .host a :: rest) (hd : decodeHost s.cfg.blockBase a = .ok is) :
    step s = runAll is { s with agenda := rest } := by
  simp [step_host ha, hostAction, hd, Action.out]

/-- Settles O9: the turn is INF's or the host's, and each runs the row that its decoder gives. -/
theorem stepRunsDecoded : Obligations.StepRunsDecoded := by
  refine ⟨fun s rest c i left ha hr hc hn hd => ?_, fun s c i left ha hr hc hn hd => ?_,
    fun s a rest i ha hd => ?_⟩
  · exact (step_inf_cons ha).trans
      ((infStep_decode (s := { s with agenda := rest }) hr hc hn).trans (decodeAction_row hd))
  · exact (step_inf_nil ha).trans ((infStep_decode hr hc hn).trans (decodeAction_row hd))
  · exact (step_host_rows ha hd).trans (runAll_one i _)

end Sys2Proof.Machine
end

section
/-! PROOF. The rows by who performs them: INF without an emit, INF with one, or the host. The 59 length and distance
rows have two meanings between them, so a proof about INF's rows has 24 cases and not 80. -/

namespace Sys2Proof.Machine

/-- The meanings of the steps INF performs without an emit. -/
inductive InfMeaning : (State → Out) → Prop where
  | zhdrCmf (v : Byte) : InfMeaning (execZhdrCmf v)
  | zhdrFlg (v : Byte) : InfMeaning (execZhdrFlg v)
  | blockStored (f : Bool) : InfMeaning (execBlockStored f)
  | blockFixed (f : Bool) : InfMeaning (execBlockFixed f)
  | blockDynamic (f : Bool) : InfMeaning (execBlockDynamic f)
  | blockReserved (f : Bool) : InfMeaning (execBlockReserved f)
  | storedHdr (f : StoredField) : InfMeaning (execStoredHdr f)
  | dynHdr (f : DynField) : InfMeaning (execDynHdr f)
  | dynClen (f : ClenStep) : InfMeaning (execDynClen f)
  | clLen (l : BitVec 4) : InfMeaning (execClLen l)
  | clRep16 (f : SymStep 2) : InfMeaning (execClRep16 f)
  | clZero17 (f : SymStep 3) : InfMeaning (execClZero17 f)
  | clZero18 (f : SymStep 7) : InfMeaning (execClZero18 f)
  | dynBuild : InfMeaning execDynBuild
  | litCode (b : Byte) : InfMeaning (execLit (.code b))
  | eob : InfMeaning execEob
  | length {k : Nat} (sym : BitVec 9) (base : Nat) (f : SymStep k) : InfMeaning (lenSymbol sym base f)
  | llReserved (x : BitVec 1) : InfMeaning (execLLReserved x)
  | distance {k : Nat} (sym : BitVec 5) (base : Nat) (f : SymStep k) : InfMeaning (distSymbol sym base f)
  | dReserved (x : BitVec 1) : InfMeaning (execDReserved x)
  | trailer (b : Byte) : InfMeaning (execTrailer b)

/-- The three steps that emit a byte (R136). -/
inductive EmitRow : Instr → Prop where
  | storedByte (b : Byte) : EmitRow (.storedByte b)
  | litEmit : EmitRow (.lit .emit)
  | matchCopy (len : BitVec 9) (dist : BitVec 16) : EmitRow (.matchCopy len dist)

/-- The thirteen rows the host performs (R102 to R108, R208 to R211). -/
inductive HostRow : Instr → Prop where
  | start : HostRow .start
  | eoi : HostRow .eoi
  | abort : HostRow .abort
  | push (b : Byte) : HostRow (.push b)
  | pop : HostRow .pop
  | wrConfig (v : Word) : HostRow (.wrConfig v)
  | wrOutLimit (v : Word) : HostRow (.wrOutLimit v)
  | wrCrcExpect (v : Word) : HostRow (.wrCrcExpect v)
  | rdReg (k : BitVec 5) : HostRow (.rdReg k)
  | crcInit : HostRow .crcInit
  | crcByte (b : Byte) : HostRow (.crcByte b)
  | rdCrcValue : HostRow .rdCrcValue
  | rdCrcStatus : HostRow .rdCrcStatus

/-- Every row is INF's, with or without an emit, or the host's. -/
theorem row_performer (i : Instr) : InfMeaning (exec i) ∨ EmitRow i ∨ HostRow i := by
  cases i with
  | zhdrCmf v => exact .inl (.zhdrCmf v)
  | zhdrFlg v => exact .inl (.zhdrFlg v)
  | blockStored f => exact .inl (.blockStored f)
  | blockFixed f => exact .inl (.blockFixed f)
  | blockDynamic f => exact .inl (.blockDynamic f)
  | blockReserved f => exact .inl (.blockReserved f)
  | storedHdr f => exact .inl (.storedHdr f)
  | storedByte b => exact .inr (.inl (.storedByte b))
  | dynHdr f => exact .inl (.dynHdr f)
  | dynClen f => exact .inl (.dynClen f)
  | clLen l => exact .inl (.clLen l)
  | clRep16 f => exact .inl (.clRep16 f)
  | clZero17 f => exact .inl (.clZero17 f)
  | clZero18 f => exact .inl (.clZero18 f)
  | dynBuild => exact .inl .dynBuild
  | lit f =>
    cases f with
    | code b => exact .inl (.litCode b)
    | emit => exact .inr (.inl .litEmit)
  | eob => exact .inl .eob
  | len257 f | len258 f | len259 f | len260 f | len261 f | len262 f | len263 f | len264 f | len265 f | len266 f
  | len267 f | len268 f | len269 f | len270 f | len271 f | len272 f | len273 f | len274 f | len275 f | len276 f
  | len277 f | len278 f | len279 f | len280 f | len281 f | len282 f | len283 f | len284 f | len285 f =>
    exact .inl (.length _ _ f)
  | llReserved x => exact .inl (.llReserved x)
  | dist0 f | dist1 f | dist2 f | dist3 f | dist4 f | dist5 f | dist6 f | dist7 f | dist8 f | dist9 f | dist10 f
  | dist11 f | dist12 f | dist13 f | dist14 f | dist15 f | dist16 f | dist17 f | dist18 f | dist19 f | dist20 f
  | dist21 f | dist22 f | dist23 f | dist24 f | dist25 f | dist26 f | dist27 f | dist28 f | dist29 f =>
    exact .inl (.distance _ _ f)
  | dReserved x => exact .inl (.dReserved x)
  | matchCopy len dist => exact .inr (.inl (.matchCopy len dist))
  | trailer b => exact .inl (.trailer b)
  | start => exact .inr (.inr .start)
  | eoi => exact .inr (.inr .eoi)
  | abort => exact .inr (.inr .abort)
  | push b => exact .inr (.inr (.push b))
  | pop => exact .inr (.inr .pop)
  | wrConfig v => exact .inr (.inr (.wrConfig v))
  | wrOutLimit v => exact .inr (.inr (.wrOutLimit v))
  | wrCrcExpect v => exact .inr (.inr (.wrCrcExpect v))
  | rdReg k => exact .inr (.inr (.rdReg k))
  | crcInit => exact .inr (.inr .crcInit)
  | crcByte b => exact .inr (.inr (.crcByte b))
  | rdCrcValue => exact .inr (.inr .rdCrcValue)
  | rdCrcStatus => exact .inr (.inr .rdCrcStatus)

end Sys2Proof.Machine
end

section
/-! PROOF. What the rows that emit nothing leave alone: the output side, the latches and registers, the CRC unit. -/

namespace Sys2Proof.Machine

/-- Of what a step of INF that emits nothing leaves as it is, the part that only a few host rows write. -/
structure Outer where
  cfg : Config
  agenda : List Turn
  ctl : Ctl
  out : Output
  crc : Crc

/-- That part of a state. -/
def State.outer (s : State) : Outer :=
  { cfg := s.cfg, agenda := s.agenda, ctl := s.ctl, out := s.out, crc := s.crc }

theorem State.blockEnd_outer (s : State) : s.blockEnd.outer = s.outer := by
  rcases s.blockEnd_cases with ⟨_, e⟩ | ⟨_, e⟩ <;> rw [e] <;> rfl

theorem State.validate_outer (s : State) (t : Table) (o i : ErrCause) {k : State → State}
    (hk : ∀ u, (k u).outer = u.outer) : (s.validate t o i k).outer = s.outer := by
  rcases s.validate_cases t o i k with ⟨_, e⟩ | ⟨_, e⟩ | ⟨_, _, e⟩ <;> rw [e]
  · rfl
  · exact hk s
  · rfl

theorem State.buildCL_outer (s : State) {k : State → State} (hk : ∀ u, (k u).outer = u.outer) :
    (s.buildCL k).outer = s.outer :=
  State.validate_outer _ _ _ _ hk

theorem State.buildLL_outer (s : State) {k : State → State} (hk : ∀ u, (k u).outer = u.outer) :
    (s.buildLL k).outer = s.outer :=
  State.validate_outer _ _ _ _ hk

theorem State.buildD_outer (s : State) {k : State → State} (hk : ∀ u, (k u).outer = u.outer) :
    (s.buildD k).outer = s.outer := by
  rcases s.buildD_cases k with ⟨_, e⟩ | ⟨_, e⟩ | ⟨_, _, ⟨_, e⟩ | ⟨_, _, e⟩⟩ <;> rw [e]
  · rfl
  · exact hk _
  · rfl
  · exact hk _

theorem State.putLens_outer (s : State) (n : Nat) (v : BitVec 4) : (s.putLens n v).outer = s.outer := by
  unfold State.putLens
  extract_lets
  split <;> rfl

theorem State.repeatLens_outer (s : State) (n : Nat) (v : BitVec 4) : (s.repeatLens n v).outer = s.outer := by
  unfold State.repeatLens
  split
  · rfl
  · exact State.putLens_outer _ n v

theorem startCopy_outer (s : State) (dist : Nat) : (startCopy s dist).outer = s.outer := by
  unfold startCopy
  split <;> rfl

theorem dynCounts_outer (s : State) : (dynCounts s).outer = s.outer := by
  unfold dynCounts
  split <;> rfl

theorem zlibChecks_outer (s : State) {k : State → State} (hk : ∀ u, (k u).outer = u.outer) :
    (zlibChecks s k).outer = s.outer := by
  unfold zlibChecks
  split_ifs
  · rfl
  · rfl
  · rfl
  · rfl
  · exact hk s

theorem trailerCheck_outer (s : State) : (trailerCheck s).outer = s.outer := by
  unfold trailerCheck
  split <;> rfl

/-- A step of INF whose writes are INF's own keeps the rest. -/
theorem State.inf_outer {s t : State} {g : State → State} (h : s.inf (fun u => .next (g u)) = .next t)
    (hg : ∀ u, (g u).outer = u.outer) : t.outer = s.outer := by
  rcases State.inf_cases h with ⟨_, h⟩ | ⟨_, rfl⟩
  · cases h
    exact hg s.unhold
  · rfl

/-- INF's rows that emit nothing keep all of `Outer`. -/
theorem InfMeaning.outer {m : State → Out} (hm : InfMeaning m) {s t : State} (h : m s = .next t) :
    t.outer = s.outer := by
  cases hm with
  | zhdrCmf v | blockStored f | blockFixed f | blockDynamic f | blockReserved f | llReserved x | dReserved x =>
    exact State.inf_outer h (fun _ => rfl)
  | zhdrFlg v => exact State.inf_outer h (fun u => zlibChecks_outer _ fun _ => rfl)
  | storedHdr f =>
    cases f with
    | len v => exact State.inf_outer h (fun _ => rfl)
    | nlen v =>
      refine State.inf_outer h (fun u => ?_)
      split_ifs
      · rfl
      · exact State.blockEnd_outer _
      · rfl
  | dynHdr f =>
    cases f with
    | hlit v | hdist v => exact State.inf_outer h (fun _ => rfl)
    | hclen v => exact State.inf_outer h (fun u => dynCounts_outer _)
  | dynClen f =>
    cases f with
    | field v => exact State.inf_outer h (fun _ => rfl)
    | build => exact State.inf_outer h (fun u => State.buildCL_outer u fun _ => rfl)
  | clLen l => exact State.inf_outer h (fun u => State.putLens_outer _ 1 l)
  | clRep16 f =>
    cases f with
    | code =>
      refine State.inf_outer h (fun u => ?_)
      split <;> rfl
    | extra e => exact State.inf_outer h (fun u => State.repeatLens_outer _ _ _)
  | clZero17 f | clZero18 f =>
    cases f with
    | code => exact State.inf_outer h (fun _ => rfl)
    | extra e => exact State.inf_outer h (fun u => State.repeatLens_outer _ _ _)
  | dynBuild =>
    refine State.inf_outer h (fun u => ?_)
    split
    · rfl
    · exact State.buildLL_outer u fun v => State.buildD_outer v fun _ => rfl
  | litCode b =>
    unfold execLit at h
    exact State.inf_outer h fun _ => rfl
  | eob => exact State.inf_outer h (fun u => State.blockEnd_outer _)
  | length sym base f => cases f with
    | code | extra e => exact State.inf_outer h (fun _ => rfl)
  | distance sym base f => cases f with
    | code => exact State.inf_outer h (fun _ => rfl)
    | extra e => exact State.inf_outer h (fun u => startCopy_outer _ _)
  | trailer b =>
    refine State.inf_outer h (fun u => ?_)
    split
    · exact trailerCheck_outer _
    · rfl

theorem execEoi_outer {s t : State} (h : execEoi s = .next t) : t.outer = s.outer := by
  unfold execEoi at h
  split at h <;> cases h <;> rfl

theorem pushRunning_outer (b : Byte) (s : State) : (pushRunning b s).outer = s.outer := by
  unfold pushRunning
  split_ifs <;> rfl

theorem execPush_outer {b : Byte} {s t : State} (h : execPush b s = .next t) : t.outer = s.outer := by
  unfold execPush at h
  split at h <;> cases h
  · exact pushRunning_outer b s
  all_goals rfl

/-- A pop writes OUT_FIFO and the value read, nothing else (R106). -/
theorem execPop_next {s t : State} (h : execPop s = .next t) :
    t = { s with rdata := t.rdata, out := { s.out with fifo := t.out.fifo } } := by
  unfold execPop at h
  split at h <;> cases h <;> rfl

/-- Settles O56: only eight host rows write any of `Outer`, and the statement excepts just what each of them writes. -/
theorem nonEmittingFrame : Obligations.NonEmittingFrame := by
  intro i s t h hstored hlit hmatch
  by_cases hsame : t.outer = s.outer
  · obtain ⟨hcfg, hagenda, hctl, hout, hcrc⟩ := Outer.mk.inj hsame
    exact ⟨fun a => by rw [hout], fun _ _ _ => hout, fun _ _ _ => hctl, fun _ _ _ => hcrc, hcfg, hagenda⟩
  · rcases row_performer i with hi | hi | hi
    · exact absurd (hi.outer h) hsame
    · cases hi with
      | storedByte b => exact absurd rfl (hstored b)
      | litEmit => exact absurd rfl hlit
      | matchCopy len dist => exact absurd rfl (hmatch len dist)
    · cases hi with
      | eoi => exact absurd (execEoi_outer h) hsame
      | push b => exact absurd (execPush_outer h) hsame
      | rdReg | rdCrcValue | rdCrcStatus =>
        cases h
        exact absurd rfl hsame
      | start =>
        cases h
        exact ⟨fun _ => rfl, fun hne => absurd rfl hne, fun hne => absurd rfl hne, fun _ _ _ => rfl, rfl, rfl⟩
      | abort =>
        cases h
        exact ⟨fun _ => rfl, fun _ hne => absurd rfl hne, fun _ _ _ => rfl, fun _ _ _ => rfl, rfl, rfl⟩
      | pop =>
        rw [execPop_next h]
        exact ⟨fun _ => rfl, fun _ _ hne => absurd rfl hne, fun _ _ _ => rfl, fun _ _ _ => rfl, rfl, rfl⟩
      | wrConfig v =>
        cases h
        exact ⟨fun _ => rfl, fun _ _ _ => rfl, fun _ hne => absurd rfl (hne v), fun _ _ _ => rfl, rfl, rfl⟩
      | wrOutLimit v =>
        cases h
        exact ⟨fun _ => rfl, fun _ _ _ => rfl, fun _ _ hne => absurd rfl (hne v), fun _ _ _ => rfl, rfl, rfl⟩
      | wrCrcExpect v =>
        cases h
        exact ⟨fun _ => rfl, fun _ _ _ => rfl, fun _ _ _ => rfl, fun _ _ hne => absurd rfl (hne v), rfl, rfl⟩
      | crcInit =>
        cases h
        exact ⟨fun _ => rfl, fun _ _ _ => rfl, fun _ _ _ => rfl, fun _ hne => absurd rfl hne, rfl, rfl⟩
      | crcByte b =>
        cases h
        exact ⟨fun _ => rfl, fun _ _ _ => rfl, fun _ _ _ => rfl, fun hne => absurd rfl (hne b), rfl, rfl⟩

end Sys2Proof.Machine
end

section
/-! PROOF. The decoder reads no host row: the rows of the stream are INF's (R97, R98). -/

namespace Sys2Proof.Machine

/-- A host row has an access, so a row without one is INF's. -/
theorem HostRow.encodeHost_ne_none {i : Instr} (hi : HostRow i) (base : Nat) : encodeHost base i ≠ none := by
  cases hi <;> exact Option.some_ne_none _

theorem encodeHost_of_getElem? {base n : Nat} {rows : List Instr} {i : Instr} (h : rows[n]? = some i)
    (hrows : ∀ r ∈ rows, encodeHost base r = none) : encodeHost base i = none :=
  hrows i (List.mem_of_getElem? h)

theorem encodeHost_lenCodeRow {base n : Nat} {i : Instr} (h : lenCodeRow n = some i) : encodeHost base i = none :=
  encodeHost_of_getElem? h (by simp [encodeHost])

theorem encodeHost_distCodeRow {base n : Nat} {i : Instr} (h : distCodeRow n = some i) : encodeHost base i = none :=
  encodeHost_of_getElem? h (by simp [encodeHost])

theorem encodeHost_lenExtraRow {base n e : Nat} {i : Instr} (h : lenExtraRow n e = some i) :
    encodeHost base i = none := by
  unfold lenExtraRow at h
  split at h <;> cases h <;> rfl

theorem encodeHost_distExtraRow {base n e : Nat} {i : Instr} (h : distExtraRow n e = some i) :
    encodeHost base i = none := by
  unfold distExtraRow at h
  split at h <;> cases h <;> rfl

theorem encodeHost_llRow {base n : Nat} {i : Instr} (h : llRow n = some i) : encodeHost base i = none := by
  unfold llRow at h
  split_ifs at h
  · cases h; rfl
  · cases h; rfl
  · exact encodeHost_lenCodeRow h
  · cases h; rfl

theorem encodeHost_distRow {base n : Nat} {i : Instr} (h : distRow n = some i) : encodeHost base i = none := by
  unfold distRow at h
  split_ifs at h
  · exact encodeHost_distCodeRow h
  · cases h; rfl

theorem encodeHost_clRow {base n : Nat} {i : Instr} (h : clRow n = some i) : encodeHost base i = none := by
  unfold clRow at h
  split_ifs at h <;> cases h <;> rfl

theorem encodeHost_bhdrRow (base : Nat) (v : BitVec 3) : encodeHost base (bhdrRow v) = none := by
  unfold bhdrRow
  split <;> rfl

theorem fieldTo_ok {n : Nat} {row : BitVec n → Instr} {bits left : List Bool} {i : Instr}
    (h : fieldTo n row bits = .ok (i, left)) : ∃ v, i = row v := by
  unfold fieldTo at h
  split at h
  · cases h
  · cases h
    exact ⟨_, rfl⟩

theorem symTo_ok {row : Nat → Option Instr} {r : Except Reject (Nat × List Bool)} {i : Instr} {left : List Bool}
    (h : symTo row r = .ok (i, left)) : ∃ n, row n = some i := by
  unfold symTo at h
  split at h
  · cases h
  · split at h
    · cases h
      exact ⟨_, ‹_›⟩
    · cases h

theorem extraTo_ok {tab : List (Nat × Nat)} {row : Nat → Nat → Option Instr} {n : Nat} {bits left : List Bool}
    {i : Instr} (h : extraTo tab row n bits = .ok (i, left)) : ∃ e, row n e = some i := by
  unfold extraTo at h
  split at h
  · cases h
  · split at h
    · cases h
    · split at h
      · cases h
        exact ⟨_, ‹_›⟩
      · cases h

/-- What the stream's decoder reads has no access: it is no host row (R97). -/
theorem encodeHost_of_decode {base : Nat} {c : Ctx} {bits left : List Bool} {i : Instr}
    (h : decode c bits = .ok (i, left)) : encodeHost base i = none := by
  cases c with
  | cmf | flg | storedLen | storedNlen | storedByte | hlit | hdist | hclen | clen | rep16 | zero17 | zero18
  | trailer =>
    obtain ⟨v, rfl⟩ := fieldTo_ok h
    rfl
  | bhdr =>
    obtain ⟨v, rfl⟩ := fieldTo_ok h
    exact encodeHost_bhdrRow base v
  | clBuild | dynBuild | litEmit | copy =>
    cases h
    rfl
  | clSym t hc =>
    obtain ⟨n, hn⟩ := symTo_ok h
    exact encodeHost_clRow hn
  | llSym t hc =>
    obtain ⟨n, hn⟩ := symTo_ok h
    exact encodeHost_llRow hn
  | dSym t hc =>
    obtain ⟨n, hn⟩ := symTo_ok h
    exact encodeHost_distRow hn
  | lenExtra sym =>
    obtain ⟨e, he⟩ := extraTo_ok h
    exact encodeHost_lenExtraRow he
  | distExtra sym =>
    obtain ⟨e, he⟩ := extraTo_ok h
    exact encodeHost_distExtraRow he

theorem not_hostRow_of_decode {c : Ctx} {bits left : List Bool} {i : Instr} (h : decode c bits = .ok (i, left)) :
    ¬ HostRow i :=
  fun hi => hi.encodeHost_ne_none 0 (encodeHost_of_decode h)

end Sys2Proof.Machine
end

section
/-! PROOF. INF does not read the CRC unit: with another unit beside it, its turn does the same. -/

namespace Sys2Proof.Machine

/-- s with another CRC unit beside it. -/
def State.withCrc (s : State) (c : Crc) : State := { s with crc := c }

@[simp] theorem State.withCrc_blk (s : State) (c : Crc) : (s.withCrc c).blk = s.blk := rfl
@[simp] theorem State.withCrc_inp (s : State) (c : Crc) : (s.withCrc c).inp = s.inp := rfl
@[simp] theorem State.withCrc_ctl (s : State) (c : Crc) : (s.withCrc c).ctl = s.ctl := rfl
@[simp] theorem State.withCrc_out (s : State) (c : Crc) : (s.withCrc c).out = s.out := rfl
@[simp] theorem State.withCrc_crc (s : State) (c : Crc) : (s.withCrc c).crc = c := rfl

theorem State.withCrc_ite {p : Prop} [Decidable p] (a b : State) (c : Crc) :
    (if p then a else b).withCrc c = if p then a.withCrc c else b.withCrc c :=
  apply_ite (State.withCrc · c) p a b

theorem State.fill_withCrc (s : State) (c : Crc) : (s.withCrc c).fill = s.fill.withCrc c := by
  simp only [State.fill, State.withCrc_inp]
  split
  · rw [State.withCrc_ite]; rfl
  · rw [State.withCrc_ite]; rfl

theorem State.blockEnd_withCrc (s : State) (c : Crc) : (s.withCrc c).blockEnd = s.blockEnd.withCrc c := by
  simp only [State.blockEnd, State.withCrc_ite]
  rfl

theorem startCopy_withCrc (s : State) (c : Crc) (dist : Nat) :
    startCopy (s.withCrc c) dist = (startCopy s dist).withCrc c := by
  simp only [startCopy, State.withCrc_ite]
  rfl

theorem dynCounts_withCrc (s : State) (c : Crc) : dynCounts (s.withCrc c) = (dynCounts s).withCrc c := by
  simp only [dynCounts, State.withCrc_ite]
  rfl

theorem trailerCheck_withCrc (s : State) (c : Crc) : trailerCheck (s.withCrc c) = (trailerCheck s).withCrc c := by
  simp only [trailerCheck, State.withCrc_ite]
  rfl

theorem State.putLens_withCrc (s : State) (c : Crc) (n : Nat) (v : BitVec 4) :
    (s.withCrc c).putLens n v = (s.putLens n v).withCrc c := by
  simp only [State.putLens, State.withCrc_ite]
  rfl

theorem State.repeatLens_withCrc (s : State) (c : Crc) (n : Nat) (v : BitVec 4) :
    (s.withCrc c).repeatLens n v = (s.repeatLens n v).withCrc c := by
  simp only [State.repeatLens, State.withCrc_ite, ← State.putLens_withCrc]
  rfl

section
variable {k : State → State} {c : Crc} (hk : ∀ u, k (u.withCrc c) = (k u).withCrc c)
include hk

theorem zlibChecks_withCrc (s : State) : zlibChecks (s.withCrc c) k = (zlibChecks s k).withCrc c := by
  simp only [zlibChecks, State.withCrc_ite, ← hk]
  rfl

theorem State.emit_withCrc (s : State) (b : Byte) : (s.withCrc c).emit b k = (s.emit b k).withCrc c := by
  simp only [State.emit, State.withCrc_ite, ← hk]
  rfl

theorem State.validate_withCrc (s : State) (t : Table) (o i : ErrCause) :
    (s.withCrc c).validate t o i k = (s.validate t o i k).withCrc c := by
  unfold State.validate
  split
  · rfl
  · exact hk s
  · rfl

theorem State.buildCL_withCrc (s : State) : (s.withCrc c).buildCL k = (s.buildCL k).withCrc c := by
  simp only [State.buildCL, ← State.validate_withCrc hk]
  rfl

theorem State.buildLL_withCrc (s : State) : (s.withCrc c).buildLL k = (s.buildLL k).withCrc c := by
  simp only [State.buildLL, ← State.validate_withCrc hk]
  rfl

theorem State.buildD_withCrc (s : State) : (s.withCrc c).buildD k = (s.buildD k).withCrc c := by
  simp only [State.buildD, State.withCrc_blk, State.withCrc_ctl]
  split
  · rfl
  · rw [← hk]
    rfl
  · split
    · rw [← hk]
      rfl
    · rfl

end

/-- A step of INF commutes with `withCrc` where its writes do. -/
theorem State.inf_withCrc {s t : State} {c : Crc} {g : State → State} (h : s.inf (fun u => .next (g u)) = .next t)
    (hg : ∀ u, g (u.withCrc c) = (g u).withCrc c) :
    (s.withCrc c).inf (fun u => .next (g u)) = .next (t.withCrc c) := by
  rcases State.inf_cases h with ⟨hr, h⟩ | ⟨hr, rfl⟩
  · cases h
    rw [State.inf_running _ (s := s.withCrc c) hr]
    exact congrArg _ (hg s.unhold)
  · exact State.inf_stopped _ (s := t.withCrc c) hr

/-- An emitting step of INF commutes with `withCrc` where its writes do. -/
theorem State.infEmit_withCrc {s t : State} {c : Crc} {k : State → Out} (h : s.infEmit k = .next t)
    (hk : ∀ u v, k u = .next v → k (u.withCrc c) = .next (v.withCrc c)) :
    (s.withCrc c).infEmit k = .next (t.withCrc c) := by
  rcases State.infEmit_cases h with ⟨hr, hc, h⟩ | ⟨hr, hc, rfl⟩ | ⟨hr, rfl⟩
  · rw [State.infEmit_space _ (s := s.withCrc c) hr hc]
    exact hk s.unhold t h
  · exact State.infEmit_full _ (s := s.withCrc c) hr hc
  · exact State.infEmit_stopped _ (s := t.withCrc c) hr

theorem InfMeaning.withCrc {m : State → Out} (hm : InfMeaning m) {s t : State} (c : Crc) (h : m s = .next t) :
    m (s.withCrc c) = .next (t.withCrc c) := by
  cases hm with
  | zhdrCmf v | blockStored f | blockFixed f | blockDynamic f | blockReserved f | llReserved x | dReserved x =>
    exact State.inf_withCrc h fun _ => rfl
  | zhdrFlg v => exact State.inf_withCrc h fun u => zlibChecks_withCrc (fun _ => rfl) { u.dropBits 8 with zl := _ }
  | storedHdr f =>
    cases f with
    | len v => exact State.inf_withCrc h fun _ => rfl
    | nlen v =>
      refine State.inf_withCrc h fun u => ?_
      simp only [State.withCrc_ite, ← State.blockEnd_withCrc]
      rfl
  | dynHdr f =>
    cases f with
    | hlit v | hdist v => exact State.inf_withCrc h fun _ => rfl
    | hclen v => exact State.inf_withCrc h fun u => dynCounts_withCrc { u.dropBits 4 with blk := _ } c
  | dynClen f =>
    cases f with
    | field v => exact State.inf_withCrc h fun _ => rfl
    | build => exact State.inf_withCrc h fun u => State.buildCL_withCrc (fun _ => rfl) u
  | clLen l => exact State.inf_withCrc h fun u => State.putLens_withCrc u.endCode c 1 l
  | clRep16 f =>
    cases f with
    | code =>
      refine State.inf_withCrc h fun u => ?_
      rw [State.withCrc_ite]
      rfl
    | extra e => exact State.inf_withCrc h fun u => State.repeatLens_withCrc (u.dropBits 2) c _ _
  | clZero17 f =>
    cases f with
    | code => exact State.inf_withCrc h fun _ => rfl
    | extra e => exact State.inf_withCrc h fun u => State.repeatLens_withCrc (u.dropBits 3) c _ _
  | clZero18 f =>
    cases f with
    | code => exact State.inf_withCrc h fun _ => rfl
    | extra e => exact State.inf_withCrc h fun u => State.repeatLens_withCrc (u.dropBits 7) c _ _
  | dynBuild =>
    refine State.inf_withCrc h fun u => ?_
    have hbuild : (u.withCrc c).buildLL (fun v => v.buildD fun w => w.goto .sym) = _ :=
      State.buildLL_withCrc (fun v => State.buildD_withCrc (fun _ => rfl) v) u
    rw [hbuild, State.withCrc_ite]
    rfl
  | litCode b =>
    unfold execLit at h ⊢
    exact State.inf_withCrc h fun _ => rfl
  | eob => exact State.inf_withCrc h fun u => State.blockEnd_withCrc u.endCode c
  | length sym base f =>
    cases f with
    | code | extra e => exact State.inf_withCrc h fun _ => rfl
  | distance sym base f =>
    cases f with
    | code => exact State.inf_withCrc h fun _ => rfl
    | extra e => exact State.inf_withCrc h fun u => startCopy_withCrc (u.dropBits _) c _
  | trailer b =>
    refine State.inf_withCrc h fun u => ?_
    simp only [State.withCrc_ite, ← trailerCheck_withCrc]
    rfl

theorem EmitRow.exec_withCrc {i : Instr} (hi : EmitRow i) {s t : State} (c : Crc) (h : exec i s = .next t) :
    exec i (s.withCrc c) = .next (t.withCrc c) := by
  cases hi with
  | storedByte b =>
    rw [exec_storedByte] at h ⊢
    refine State.infEmit_withCrc h fun u v hu => ?_
    cases hu
    refine congrArg _ (State.emit_withCrc (fun w => ?_) (u.dropBits 8) b)
    simp only [State.withCrc_ite, ← State.blockEnd_withCrc]
    rfl
  | litEmit =>
    rw [exec_lit, execLit] at h ⊢
    refine State.infEmit_withCrc h fun u v hu => ?_
    cases hu
    exact congrArg _ (State.emit_withCrc (fun _ => rfl) u _)
  | matchCopy len dist =>
    rw [exec_matchCopy] at h ⊢
    refine State.infEmit_withCrc h fun u v hu => ?_
    rw [State.withCrc_out]
    match hw : winRead u.out dist.toNat with
    | .error e => simp [hw] at hu
    | .ok b =>
      simp only [hw] at hu ⊢
      cases hu
      refine congrArg _ (State.emit_withCrc (fun w => ?_) u b)
      rw [State.withCrc_ite]
      rfl

/-- INF's turn commutes with putting another CRC unit beside it (R2, R212). -/
theorem infStep_withCrc {s t : State} (c : Crc) (h : infStep s = .next t) :
    infStep (s.withCrc c) = .next (t.withCrc c) := by
  rcases infStep_cases h with
    ⟨hr, rfl⟩ | ⟨hr, x, hx, ⟨hn, rfl⟩ | ⟨hn, ⟨hc, hd, rfl⟩ | ⟨hc, hd, rfl⟩ | ⟨i, left, hd, he⟩⟩⟩
  · exact infStep_stopped (s := t.withCrc c) hr
  · rw [infStep_fill (s := s.withCrc c) hr hx hn, State.fill_withCrc]
  all_goals rw [infStep_decode (s := s.withCrc c) hr hx hn]
  · exact decodeAction_more (s := s.withCrc c) hd
  · exact decodeAction_invalid (s := s.withCrc c) hd
  · rw [decodeAction_row (s := s.withCrc c) hd]
    rcases row_performer i with hm | hi | hi
    · exact hm.withCrc c he
    · exact hi.exec_withCrc c he
    · exact absurd hi (not_hostRow_of_decode hd)

/-- INF's turn leaves the CRC unit: it would leave any unit put in its place, so it leaves the one that is there. -/
theorem infStep_crc {s t : State} (h : infStep s = .next t) : t.crc = s.crc := by
  have hself : infStep s = .next (t.withCrc s.crc) := infStep_withCrc s.crc h
  have ht : t = t.withCrc s.crc := Host.Outcome.next.inj (h.symm.trans hself)
  rw [ht, State.withCrc_crc]

/-- Settles O52: INF's turn commutes with replacing the CRC unit, and each CRC row writes the unit or the value read. -/
theorem unitsShareNothing : Obligations.UnitsShareNothing := by
  refine ⟨fun s t c h => ⟨infStep_crc h, infStep_withCrc c h⟩, fun i s t b v hi h => ?_⟩
  simp only [List.mem_cons, List.not_mem_nil, or_false] at hi
  rcases hi with rfl | rfl | rfl | rfl | rfl <;> cases h <;> rfl

end Sys2Proof.Machine
end

section
/-! PROOF. INF's turn from the context on: where the registers stand in each context, and the meanings its bits can
decode to, with the ranges of the numbers in them (R21, R87 to R92, R97). -/

namespace Sys2Proof.Machine

/-- Where PHASE, its step and the registers stand when INF reads in context c (R21, R97). -/
def Ctx.At (c : Ctx) (s : State) : Prop :=
  match c with
  | .cmf | .flg => s.phase = .zhdr
  | .bhdr => s.phase = .bhdr
  | .storedLen | .storedNlen => s.phase = .storedHdr
  | .storedByte => s.phase = .storedCopy
  | .hlit | .hdist | .hclen => s.phase = .dynHdr
  | .clen | .clBuild => s.phase = .dynCl
  | .clSym t h => s.phase = .dynLens ∧ s.blk.clSym = 0 ∧ t = s.tabs.cl ∧ h = s.hc
  | .rep16 | .zero17 | .zero18 => s.phase = .dynLens ∧ s.blk.clSym ≠ 0
  | .dynBuild => s.phase = .dynBuild
  | .llSym t h => s.phase = .sym ∧ t = s.tabs.ll ∧ h = s.hc
  | .litEmit => s.phase = .lit
  | .lenExtra sym => s.phase = .lextra ∧ sym = s.copy.lSym
  | .dSym t h => s.phase = .dist ∧ t = s.tabs.d ∧ h = s.hc
  | .distExtra sym => s.phase = .dextra ∧ sym = s.copy.dSym
  | .copy len dist => s.phase = .copy ∧ len = s.copy.len ∧ dist = s.copy.dist
  | .trailer => s.phase = .trailer

theorem State.ctx_at {s : State} {c : Ctx} (h : s.ctx = some c) : Ctx.At c s := by
  unfold State.ctx at h
  split at h
  any_goals split_ifs at h
  all_goals cases h
  all_goals simp_all [Ctx.At]

/-- The meanings that bits read in a context can decode to (R97), with the ranges of symbol numbers, of lengths and of
distances that R91 and R92 give. A code's step does not depend on the base, nor an extra-bits step on the symbol: 0
stands for what the step does not use. -/
inductive Reads : Ctx → (State → Out) → Prop where
  | cmf (v : Byte) : Reads .cmf (execZhdrCmf v)
  | flg (v : Byte) : Reads .flg (execZhdrFlg v)
  | blockStored (f : Bool) : Reads .bhdr (execBlockStored f)
  | blockFixed (f : Bool) : Reads .bhdr (execBlockFixed f)
  | blockDynamic (f : Bool) : Reads .bhdr (execBlockDynamic f)
  | blockReserved (f : Bool) : Reads .bhdr (execBlockReserved f)
  | storedLen (v : BitVec 16) : Reads .storedLen (execStoredHdr (.len v))
  | storedNlen (v : BitVec 16) : Reads .storedNlen (execStoredHdr (.nlen v))
  | storedByte (b : Byte) : Reads .storedByte (execStoredByte b)
  | hlit (v : BitVec 5) : Reads .hlit (execDynHdr (.hlit v))
  | hdist (v : BitVec 5) : Reads .hdist (execDynHdr (.hdist v))
  | hclen (v : BitVec 4) : Reads .hclen (execDynHdr (.hclen v))
  | clen (v : BitVec 3) : Reads .clen (execDynClen (.field v))
  | clBuild : Reads .clBuild (execDynClen .build)
  | clLen (t : Table) (h : Hc) (l : BitVec 4) : Reads (.clSym t h) (execClLen l)
  | clRep16 (t : Table) (h : Hc) : Reads (.clSym t h) (execClRep16 .code)
  | clZero17 (t : Table) (h : Hc) : Reads (.clSym t h) (execClZero17 .code)
  | clZero18 (t : Table) (h : Hc) : Reads (.clSym t h) (execClZero18 .code)
  | rep16 (e : BitVec 2) : Reads .rep16 (execClRep16 (.extra e))
  | zero17 (e : BitVec 3) : Reads .zero17 (execClZero17 (.extra e))
  | zero18 (e : BitVec 7) : Reads .zero18 (execClZero18 (.extra e))
  | dynBuild : Reads .dynBuild execDynBuild
  | litCode (t : Table) (h : Hc) (b : Byte) : Reads (.llSym t h) (execLit (.code b))
  | eob (t : Table) (h : Hc) : Reads (.llSym t h) execEob
  | lenCode (t : Table) (h : Hc) (sym : BitVec 9) (lo : 257 ≤ sym.toNat) (hi : sym.toNat ≤ 285) :
      Reads (.llSym t h) (lenSymbol (k := 0) sym 0 .code)
  | llReserved (t : Table) (h : Hc) (x : BitVec 1) : Reads (.llSym t h) (execLLReserved x)
  | litEmit : Reads .litEmit (execLit .emit)
  | lenExtra (x : BitVec 9) {k : Nat} (base : Nat) (e : BitVec k) (need : (Ctx.lenExtra x).need = k) (lo : 3 ≤ base)
      (hi : base + 2 ^ k ≤ 259) : Reads (.lenExtra x) (lenSymbol 0 base (.extra e))
  | distCode (t : Table) (h : Hc) (sym : BitVec 5) (hi : sym.toNat < 30) :
      Reads (.dSym t h) (distSymbol (k := 0) sym 0 .code)
  | dReserved (t : Table) (h : Hc) (x : BitVec 1) : Reads (.dSym t h) (execDReserved x)
  | distExtra (x : BitVec 5) {k : Nat} (base : Nat) (e : BitVec k) (need : (Ctx.distExtra x).need = k) (lo : 1 ≤ base)
      (hi : base + 2 ^ k ≤ 32769) : Reads (.distExtra x) (distSymbol 0 base (.extra e))
  | copy (len : BitVec 9) (dist : BitVec 16) : Reads (.copy len dist) (execMatchCopy len dist)
  | trailer (b : Byte) : Reads .trailer (execTrailer b)

theorem Reads.of_lenCodeRow (t : Table) (h : Hc) {n : Nat} {i : Instr} (hi : lenCodeRow n = some i) :
    Reads (.llSym t h) (exec i) := by
  have hm := List.mem_of_getElem? hi
  fin_cases hm
  all_goals exact .lenCode t h _ (by decide) (by decide)

theorem Reads.of_distCodeRow (t : Table) (h : Hc) {n : Nat} {i : Instr} (hi : distCodeRow n = some i) :
    Reads (.dSym t h) (exec i) := by
  have hm := List.mem_of_getElem? hi
  fin_cases hm
  all_goals exact .distCode t h _ (by decide)

theorem Reads.of_lenExtraRow (x : BitVec 9) {e : Nat} {i : Instr} (h : lenExtraRow (lenIndex x) e = some i) :
    Reads (.lenExtra x) (exec i) := by
  unfold lenExtraRow at h
  split at h
  case h_30 => cases h
  all_goals
    rename_i hx
    cases h
    exact .lenExtra x _ _ (by rw [Ctx.need, hx]; rfl) (by decide) (by decide)

theorem Reads.of_distExtraRow (x : BitVec 5) {e : Nat} {i : Instr} (h : distExtraRow x.toNat e = some i) :
    Reads (.distExtra x) (exec i) := by
  unfold distExtraRow at h
  split at h
  case h_31 => cases h
  all_goals
    rename_i hx
    cases h
    exact .distExtra x _ _ (by rw [Ctx.need, hx]; rfl) (by decide) (by decide)

theorem Reads.of_clRow (t : Table) (h : Hc) {n : Nat} {i : Instr} (hi : clRow n = some i) :
    Reads (.clSym t h) (exec i) := by
  unfold clRow at hi
  split_ifs at hi <;> cases hi
  · exact .clLen t h _
  · exact .clRep16 t h
  · exact .clZero17 t h
  · exact .clZero18 t h

theorem Reads.of_llRow (t : Table) (h : Hc) {n : Nat} {i : Instr} (hi : llRow n = some i) :
    Reads (.llSym t h) (exec i) := by
  unfold llRow at hi
  split_ifs at hi
  · cases hi; exact .litCode t h _
  · cases hi; exact .eob t h
  · exact .of_lenCodeRow t h hi
  · cases hi; exact .llReserved t h (BitVec.ofNat 1 (n - 286))

theorem Reads.of_distRow (t : Table) (h : Hc) {n : Nat} {i : Instr} (hi : distRow n = some i) :
    Reads (.dSym t h) (exec i) := by
  unfold distRow at hi
  split_ifs at hi
  · exact .of_distCodeRow t h hi
  · cases hi; exact .dReserved t h (BitVec.ofNat 1 (n - 30))

theorem Reads.of_bhdrRow (v : BitVec 3) : Reads .bhdr (exec (bhdrRow v)) := by
  unfold bhdrRow
  split
  · exact .blockStored _
  · exact .blockFixed _
  · exact .blockDynamic _
  · exact .blockReserved _

/-- The row that a context's bits decode to is one that `Reads` lists. -/
theorem Reads.of_decode {c : Ctx} {bits left : List Bool} {i : Instr} (h : decode c bits = .ok (i, left)) :
    Reads c (exec i) := by
  cases c with
  | cmf => obtain ⟨v, rfl⟩ := fieldTo_ok h; exact .cmf v
  | flg => obtain ⟨v, rfl⟩ := fieldTo_ok h; exact .flg v
  | bhdr => obtain ⟨v, rfl⟩ := fieldTo_ok h; exact .of_bhdrRow v
  | storedLen => obtain ⟨v, rfl⟩ := fieldTo_ok h; exact .storedLen v
  | storedNlen => obtain ⟨v, rfl⟩ := fieldTo_ok h; exact .storedNlen v
  | storedByte => obtain ⟨v, rfl⟩ := fieldTo_ok h; exact .storedByte v
  | hlit => obtain ⟨v, rfl⟩ := fieldTo_ok h; exact .hlit v
  | hdist => obtain ⟨v, rfl⟩ := fieldTo_ok h; exact .hdist v
  | hclen => obtain ⟨v, rfl⟩ := fieldTo_ok h; exact .hclen v
  | clen => obtain ⟨v, rfl⟩ := fieldTo_ok h; exact .clen v
  | clBuild => cases h; exact .clBuild
  | clSym t hc => obtain ⟨n, hn⟩ := symTo_ok h; exact .of_clRow t hc hn
  | rep16 => obtain ⟨v, rfl⟩ := fieldTo_ok h; exact .rep16 v
  | zero17 => obtain ⟨v, rfl⟩ := fieldTo_ok h; exact .zero17 v
  | zero18 => obtain ⟨v, rfl⟩ := fieldTo_ok h; exact .zero18 v
  | dynBuild => cases h; exact .dynBuild
  | llSym t hc => obtain ⟨n, hn⟩ := symTo_ok h; exact .of_llRow t hc hn
  | litEmit => cases h; exact .litEmit
  | lenExtra x => obtain ⟨e, he⟩ := extraTo_ok h; exact .of_lenExtraRow x he
  | dSym t hc => obtain ⟨n, hn⟩ := symTo_ok h; exact .of_distRow t hc hn
  | distExtra x => obtain ⟨e, he⟩ := extraTo_ok h; exact .of_distExtraRow x he
  | copy len dist => cases h; exact .copy len dist
  | trailer => obtain ⟨v, rfl⟩ := fieldTo_ok h; exact .trailer v

end Sys2Proof.Machine
end

section
/-! PROOF. What every step of INF does to the bit reader, the hold flags, STATE and the error registers: it takes the
bits of its context, clears both flags, and goes on, ends in DONE from TRAILER, or ends in FAILED (R20, R62, R214, R218). -/

namespace Sys2Proof.Machine

/-- The registers that the shared operations change only by taking bits or by an error. -/
structure Front where
  inp : Input
  heldIn : Bool
  heldOut : Bool
  top : Top
  err : Err

/-- Those registers of a state. -/
def State.front (s : State) : Front :=
  { inp := s.inp, heldIn := s.heldIn, heldOut := s.heldOut, top := s.top, err := s.err }

/-- What Fail leaves of them, the cursor recorded (R214). -/
def Front.fail (f : Front) (c : ErrCause) : Front :=
  { f with
    err := { kind := BitVec.ofNat 4 c.kind.code, cause := BitVec.ofNat 8 c.code, bits := f.inp.cnt, byte := f.inp.count }
    top := .failed }

/-- n bits consumed (R62). -/
def Front.drop (f : Front) (n : Nat) : Front :=
  { f with inp := { f.inp with buf := f.inp.buf >>> n, cnt := BitVec.ofNat 5 (f.inp.cnt.toNat - n) } }

theorem Front.drop_zero (f : Front) : f.drop 0 = f := by
  simp [Front.drop]

theorem Front.drop_drop (f : Front) (n m : Nat) : (f.drop n).drop m = f.drop (n + m) := by
  have := f.inp.cnt.isLt
  have hc : (f.inp.cnt.toNat - n) % 32 - m = f.inp.cnt.toNat - (n + m) := by omega
  simp [Front.drop, BitVec.shiftRight_add, hc]

/-- f' is f with some of its bits taken, and with an error recorded or none. -/
def Front.After (f' f : Front) : Prop :=
  ∃ n, n ≤ f.inp.cnt.toNat ∧ (f' = f.drop n ∨ ∃ c, f' = (f.drop n).fail c)

theorem Front.After.same (f : Front) : f.After f := ⟨0, Nat.zero_le _, .inl f.drop_zero.symm⟩

theorem Front.After.failed (f : Front) (c : ErrCause) : (f.fail c).After f :=
  ⟨0, Nat.zero_le _, .inr ⟨c, by rw [f.drop_zero]⟩⟩

theorem Front.After.dropped {f : Front} {n : Nat} (h : n ≤ f.inp.cnt.toNat) : (f.drop n).After f := ⟨n, h, .inl rfl⟩

/-! ## The shared operations -/

theorem State.goto_front (s : State) (p : Phase) : (s.goto p).front.After s.front := .same s.front

theorem State.blockEnd_front (s : State) : s.blockEnd.front.After s.front := by
  rcases s.blockEnd_cases with ⟨_, e⟩ | ⟨_, e⟩ <;> rw [e]
  · exact .dropped (Nat.mod_le _ 8)
  · exact .same _

theorem State.putLens_front (s : State) (n : Nat) (v : BitVec 4) : (s.putLens n v).front = s.front := by
  unfold State.putLens
  extract_lets
  split <;> rfl

theorem State.repeatLens_front (s : State) (n : Nat) (v : BitVec 4) : (s.repeatLens n v).front.After s.front := by
  unfold State.repeatLens
  split
  · exact .failed _ _
  · rw [State.putLens_front]
    exact .same _

theorem startCopy_front (s : State) (dist : Nat) : (startCopy s dist).front.After s.front := by
  unfold startCopy
  split
  · exact .failed _ _
  · exact .same _

theorem dynCounts_front (s : State) : (dynCounts s).front.After s.front := by
  unfold dynCounts
  split
  · exact .failed _ _
  · exact .same _

section
variable {k : State → State} (hk : ∀ u : State, (k u).front.After u.front)
include hk

theorem zlibChecks_front (s : State) : (zlibChecks s k).front.After s.front := by
  unfold zlibChecks
  split_ifs
  · exact .failed _ _
  · exact .failed _ _
  · exact .failed _ _
  · exact .failed _ _
  · exact hk s

theorem State.emit_front (s : State) (b : Byte) : (s.emit b k).front.After s.front := by
  rcases s.emit_cases b k with ⟨_, e⟩ | ⟨_, _, e⟩ | ⟨_, e⟩ <;> rw [e]
  · exact .failed _ _
  · exact .failed _ _
  · exact hk _

theorem State.validate_front (s : State) (t : Table) (o i : ErrCause) :
    (s.validate t o i k).front.After s.front := by
  rcases s.validate_cases t o i k with ⟨_, e⟩ | ⟨_, e⟩ | ⟨_, _, e⟩ <;> rw [e]
  · exact .failed _ _
  · exact hk s
  · exact .failed _ _

theorem State.buildCL_front (s : State) : (s.buildCL k).front.After s.front :=
  State.validate_front hk _ _ _ _

theorem State.buildLL_front (s : State) : (s.buildLL k).front.After s.front :=
  State.validate_front hk _ _ _ _

theorem State.buildD_front (s : State) : (s.buildD k).front.After s.front := by
  rcases s.buildD_cases k with ⟨_, e⟩ | ⟨_, e⟩ | ⟨_, _, ⟨_, e⟩ | ⟨_, _, e⟩⟩ <;> rw [e]
  · exact .failed s.front _
  · exact hk _
  · exact .failed s.front _
  · exact hk _

end

/-! ## The rows -/

/-- What a step in context c does to these registers of s: it takes c's bits, and perhaps those up to a byte boundary;
it clears both hold flags; and it goes on, or reaches DONE in TRAILER, or ends in FAILED. -/
def Advances (c : Ctx) (s t : State) : Prop :=
  t.front.After (s.unhold.front.drop c.need) ∨
  (c = .trailer ∧ t.zl.trailerN = 4 ∧ t.zl.trailerVal = t.adler ∧
    t.front = { s.unhold.front.drop c.need with top := .done })

section
variable {c : Ctx} {s t : State} {g : State → State}

/-- A row that takes its context's bits and then does what a shared operation does. -/
theorem Advances.of_inf (hr : s.top = .running) (h : s.inf (fun u => .next (g u)) = .next t)
    (hg : ∀ u : State, (g u).front.After (u.front.drop c.need)) : Advances c s t := by
  rw [State.inf_running _ hr] at h
  cases h
  exact .inl (hg s.unhold)

/-- A row that takes its context's bits and raises nothing. -/
theorem Advances.of_inf_drop (hr : s.top = .running) (h : s.inf (fun u => .next (g u)) = .next t)
    (hg : ∀ u : State, (g u).front = u.front.drop c.need) : Advances c s t :=
  .of_inf hr h fun u => hg u ▸ .same _

/-- A row that reads no bits. -/
theorem Advances.of_inf_none (hr : s.top = .running) (h : s.inf (fun u => .next (g u)) = .next t) (hc : c.need = 0)
    (hg : ∀ u : State, (g u).front.After u.front) : Advances c s t :=
  .of_inf hr h fun u => by rw [hc, Front.drop_zero]; exact hg u

end

/-- A context whose code has a bit to read: no EMPTY table stops it. -/
def Ctx.OneBit (c : Ctx) : Prop :=
  match c with
  | .clSym t h | .llSym t h | .dSym t h => emptyStop t h = false
  | _ => True

theorem emptyStop_of_decodeCode {t : Table} {h : Hc} {bits : List Bool} {row : Nat → Option Instr}
    {r : Instr × List Bool} (hd : symTo row (decodeCode t h bits) = .ok r) : emptyStop t h = false := by
  cases he : emptyStop t h
  · rfl
  · simp [decodeCode, he, symTo] at hd

theorem Ctx.oneBit_of_decode {c : Ctx} {bits : List Bool} {r : Instr × List Bool} (h : decode c bits = .ok r) :
    Ctx.OneBit c := by
  cases c with
  | clSym | llSym | dSym => exact emptyStop_of_decodeCode h
  | _ => trivial

theorem Ctx.need_clSym {t : Table} {h : Hc} (he : emptyStop t h = false) : (Ctx.clSym t h).need = 1 := by
  simp [Ctx.need, he]

theorem Ctx.need_llSym {t : Table} {h : Hc} (he : emptyStop t h = false) : (Ctx.llSym t h).need = 1 := by
  simp [Ctx.need, he]

theorem Ctx.need_dSym {t : Table} {h : Hc} (he : emptyStop t h = false) : (Ctx.dSym t h).need = 1 := by
  simp [Ctx.need, he]

theorem Advances.of_trailer {b : Byte} {s t : State} (hr : s.top = .running) (h : execTrailer b s = .next t) :
    Advances .trailer s t := by
  unfold execTrailer at h
  rw [State.inf_running _ hr] at h
  extract_lets s1 at h
  cases h
  split
  · rename_i hn
    unfold trailerCheck
    split
    · exact .inl (.failed _ _)
    · rename_i ha
      exact .inr ⟨rfl, hn, not_not.1 ha, rfl⟩
  · exact .inl (.same _)

/-- The contexts whose step emits a byte (R136). -/
def Ctx.Emits (c : Ctx) : Prop := c = .storedByte ∨ c = .litEmit ∨ ∃ len dist, c = .copy len dist

/-- A turn of INF that finds OUT_FIFO full writes HELD_OUT and nothing else (R218). -/
def WaitsOut (c : Ctx) (s t : State) : Prop := Ctx.Emits c ∧ ¬ s.canEmit ∧ t = { s with heldOut := true }

theorem Advances.of_infEmit {c : Ctx} {s t : State} {k : State → Out} (hc : Ctx.Emits c) (hr : s.top = .running)
    (h : s.infEmit k = .next t) (hk : ∀ u : State, k u = .next t → t.front.After (u.front.drop c.need)) :
    Advances c s t ∨ WaitsOut c s t := by
  rcases State.infEmit_cases h with ⟨_, _, h⟩ | ⟨_, hfull, e⟩ | ⟨hn, _⟩
  · exact .inl (.inl (hk s.unhold h))
  · exact .inr ⟨hc, hfull, e⟩
  · exact absurd hr hn

/-- Every row that a context's bits decode to takes the context's bits, or waits for OUT_FIFO. -/
theorem Reads.advances {c : Ctx} {m : State → Out} (hm : Reads c m) {s t : State} (hr : s.top = .running)
    (hone : Ctx.OneBit c) (h : m s = .next t) : Advances c s t ∨ WaitsOut c s t := by
  cases hm with
  | cmf | blockFixed | blockDynamic | storedLen | hlit | hdist | clen =>
    exact .inl (.of_inf_drop hr h fun _ => rfl)
  | flg v =>
    refine .inl (.of_inf hr h fun u => ?_)
    exact zlibChecks_front (fun w => w.goto_front .bhdr) { u.dropBits 8 with zl := _ }
  | blockStored f => exact .inl (.of_inf hr h fun u => .dropped (Nat.mod_le _ 8))
  | blockReserved f => exact .inl (.of_inf hr h fun u => .failed _ _)
  | storedNlen v =>
    refine .inl (.of_inf hr h fun u => ?_)
    split_ifs
    · exact .failed _ _
    · exact State.blockEnd_front _
    · exact .same _
  | storedByte b =>
    refine Advances.of_infEmit (.inl rfl) hr h fun u hu => ?_
    cases hu
    refine State.emit_front (fun v => ?_) (u.dropBits 8) b
    extract_lets
    split
    · exact State.blockEnd_front _
    · exact .same _
  | hclen v => exact .inl (.of_inf hr h fun u => dynCounts_front { u.dropBits 4 with blk := _ })
  | clBuild =>
    refine .inl (.of_inf_none hr h rfl fun u => State.buildCL_front (fun v => ?_) u)
    exact .same v.front
  | clLen t hc l =>
    exact .inl (.of_inf_drop hr h fun u => (State.putLens_front _ 1 l).trans (by rw [Ctx.need_clSym hone]; rfl))
  | clRep16 t hc =>
    refine .inl (.of_inf hr h fun u => ?_)
    rw [Ctx.need_clSym hone]
    split
    · exact .failed _ _
    · exact .same _
  | clZero17 t hc | clZero18 t hc =>
    exact .inl (.of_inf_drop hr h fun u => by rw [Ctx.need_clSym hone]; rfl)
  | rep16 e | zero17 e | zero18 e => exact .inl (.of_inf hr h fun u => State.repeatLens_front _ _ _)
  | dynBuild =>
    refine .inl (.of_inf_none hr h rfl fun u => ?_)
    split
    · exact .failed _ _
    · exact State.buildLL_front (fun v => State.buildD_front (fun w => w.goto_front .sym) v) u
  | litCode t hc b =>
    unfold execLit at h
    exact .inl (.of_inf_drop hr h fun u => by rw [Ctx.need_llSym hone]; rfl)
  | lenCode t hc sym lo hi =>
    exact .inl (.of_inf_drop hr h fun u => by rw [Ctx.need_llSym hone]; rfl)
  | eob t hc =>
    refine .inl (.of_inf hr h fun u => ?_)
    rw [Ctx.need_llSym hone]
    exact State.blockEnd_front u.endCode
  | llReserved t hc x =>
    refine .inl (.of_inf hr h fun u => ?_)
    rw [Ctx.need_llSym hone]
    exact .failed _ _
  | litEmit =>
    unfold execLit at h
    refine Advances.of_infEmit (.inr (.inl rfl)) hr h fun u hu => ?_
    cases hu
    rw [show Ctx.litEmit.need = 0 from rfl, Front.drop_zero]
    refine State.emit_front (fun v => ?_) u _
    exact .same v.front
  | lenExtra x base e need lo hi => exact .inl (.of_inf_drop hr h fun u => by rw [need]; rfl)
  | distCode t hc sym hi => exact .inl (.of_inf_drop hr h fun u => by rw [Ctx.need_dSym hone]; rfl)
  | dReserved t hc x =>
    refine .inl (.of_inf hr h fun u => ?_)
    rw [Ctx.need_dSym hone]
    exact .failed _ _
  | distExtra x base e need lo hi =>
    refine .inl (.of_inf hr h fun u => ?_)
    rw [need]
    exact startCopy_front (u.dropBits _) _
  | copy len dist =>
    refine Advances.of_infEmit (.inr (.inr ⟨len, dist, rfl⟩)) hr h fun u hu => ?_
    rw [show (Ctx.copy len dist).need = 0 from rfl, Front.drop_zero]
    split at hu
    · cases hu
    · cases hu
      refine State.emit_front (fun v => ?_) u _
      extract_lets
      split <;> exact .same _
  | trailer b => exact .inl (.of_trailer hr h)

/-! ## INF's turn -/

theorem decodeCode_error {t : Table} {h : Hc} {bits : List Bool} {row : Nat → Option Instr} {r : Reject}
    (hd : symTo row (decodeCode t h bits) = .error r) : decodeCode t h bits = .error r ∨ r = .noSymbol := by
  unfold symTo at hd
  split at hd
  · rename_i he
    cases hd
    exact .inl he
  · split at hd
    · cases hd
    · cases hd
      exact .inr rfl

theorem emptyStop_of_more {t : Table} {h h' : Hc} {bits : List Bool} {row : Nat → Option Instr}
    (hd : symTo row (decodeCode t h bits) = .error (.more h')) : emptyStop t h = false := by
  rcases decodeCode_error hd with hd | hd
  · cases he : emptyStop t h
    · rfl
    · simp [decodeCode, he] at hd
  · cases hd

theorem fieldTo_error {n : Nat} {row : BitVec n → Instr} {bits : List Bool} {r : Reject}
    (h : fieldTo n row bits = .error r) : r = .short := by
  unfold fieldTo readField at h
  split_ifs at h
  cases h
  rfl

theorem extraTo_error {tab : List (Nat × Nat)} {row : Nat → Nat → Option Instr} {n : Nat} {bits : List Bool} {r : Reject}
    (h : extraTo tab row n bits = .error r) : r = .short ∨ r = .noSymbol := by
  unfold extraTo readField at h
  split at h
  · cases h
    exact .inr rfl
  · split_ifs at h
    · cases h
      exact .inl rfl
    · dsimp only at h
      split at h
      · cases h
      · cases h
        exact .inr rfl

/-- Only a code can end in the middle of its bits (R125). -/
theorem Ctx.code_of_more {c : Ctx} {bits : List Bool} {h : Hc} (hd : decode c bits = .error (.more h)) :
    (∃ t h₀, c = .clSym t h₀) ∨ (∃ t h₀, c = .llSym t h₀) ∨ ∃ t h₀, c = .dSym t h₀ := by
  cases c with
  | clSym t h₀ => exact .inl ⟨t, h₀, rfl⟩
  | llSym t h₀ => exact .inr (.inl ⟨t, h₀, rfl⟩)
  | dSym t h₀ => exact .inr (.inr ⟨t, h₀, rfl⟩)
  | clBuild | dynBuild | litEmit | copy => cases hd
  | lenExtra | distExtra => rcases extraTo_error hd with e | e <;> cases e
  | _ => cases fieldTo_error hd

/-- It does so only where there is a bit of it to read: an EMPTY table is INVALID_CODE at once. -/
theorem Ctx.need_of_more {c : Ctx} {bits : List Bool} {h : Hc} (hd : decode c bits = .error (.more h)) : c.need = 1 := by
  rcases Ctx.code_of_more hd with ⟨t, h₀, rfl⟩ | ⟨t, h₀, rfl⟩ | ⟨t, h₀, rfl⟩
  · exact Ctx.need_clSym (emptyStop_of_more hd)
  · exact Ctx.need_llSym (emptyStop_of_more hd)
  · exact Ctx.need_dSym (emptyStop_of_more hd)

/-- What INF's turn does to the registers of `Front` (R13, R20, R62, R218): nothing while not RUNNING; a fill or a hold
for input while the bits of its context are not there; otherwise it takes them, or waits for OUT_FIFO. -/
theorem infStep_front {s t : State} (h : infStep s = .next t) :
    (s.top ≠ .running ∧ t = s) ∨
    (s.top = .running ∧ ∃ c, s.ctx = some c ∧
      ((s.inp.cnt.toNat < c.need ∧ t = s.fill) ∨
       (c.need ≤ s.inp.cnt.toNat ∧ (Advances c s t ∨ WaitsOut c s t)))) := by
  rcases infStep_cases h with
    hstop | ⟨hr, c, hc, hfill | ⟨hn, ⟨hc', hd, rfl⟩ | ⟨hc', hd, rfl⟩ | ⟨i, left, hd, he⟩⟩⟩
  · exact .inl hstop
  all_goals refine .inr ⟨hr, c, hc, ?_⟩
  · exact .inl hfill
  all_goals refine .inr ⟨hn, ?_⟩
  · refine .inl (.inl ?_)
    rw [Ctx.need_of_more hd]
    exact .same _
  · exact .inl (.inl (.failed _ _))
  · exact (Reads.of_decode hd).advances hr (Ctx.oneBit_of_decode hd) he

end Sys2Proof.Machine
end

section
/-! PROOF. What a host access does: a CTRL write, one other row, or none; what each host row leaves; and the induction
that carries an invariant over every turn of R75. -/

namespace Sys2Proof.Machine

/-- An access names the register of word number k exactly where it is a word access to its offset (R69, R74). -/
theorem regIndex_ok_iff {base addr width k : Nat} :
    regIndex base addr width = .ok k ↔ width = 4 ∧ k < 32 ∧ addr = base + 4 * k := by
  unfold regIndex
  split_ifs with hw hout hal
  · simp [hw]
  · simp only [false_iff, not_and]
    rw [Config.regSpace] at hout
    omega
  · simp only [false_iff, not_and]
    omega
  · rw [Config.regSpace] at hout
    rw [Except.ok.injEq]
    omega

theorem decodeHost_read (base : Nat) {k : Nat} (hk : k < 32) :
    decodeHost base (.read (base + 4 * k) 4) = .ok [readRow k] := by
  simp [decodeHost, regIndex_ok_iff.2 ⟨rfl, hk, rfl⟩]

theorem decodeHost_write (base : Nat) {k : Nat} (hk : k < 32) (v : Word) :
    decodeHost base (.write (base + 4 * k) 4 v) = .ok (writeRows k v) := by
  simp [decodeHost, regIndex_ok_iff.2 ⟨rfl, hk, rfl⟩]

/-- A host access writes CTRL, or performs one row that is no command, or performs none (R24, R74, R98). -/
theorem decodeHost_cases {base : Nat} {a : Access} {is : List Instr} (h : decodeHost base a = .ok is) :
    (∃ v, a = .write base 4 v ∧ is = ctrlRows v) ∨
    (∃ i, is = [i] ∧ HostRow i ∧ i ≠ .start ∧ i ≠ .abort ∧ i ≠ .eoi) ∨ is = [] := by
  unfold decodeHost at h
  split at h
  · split at h
    · cases h
    · cases h
      refine .inr (.inl ⟨_, rfl, ?_⟩)
      unfold readRow
      split
      · exact ⟨.pop, by simp⟩
      · exact ⟨.rdCrcValue, by simp⟩
      · exact ⟨.rdCrcStatus, by simp⟩
      · exact ⟨.rdReg _, by simp⟩
  · rename_i addr width v
    split at h
    · cases h
    · rename_i k hk
      cases h
      unfold writeRows
      split
      · obtain ⟨rfl, _, rfl⟩ := regIndex_ok_iff.1 hk
        exact .inl ⟨v, rfl, rfl⟩
      · exact .inr (.inl ⟨_, rfl, .wrConfig v, by simp⟩)
      · exact .inr (.inl ⟨_, rfl, .wrOutLimit v, by simp⟩)
      · exact .inr (.inl ⟨_, rfl, .push _, by simp⟩)
      · split
        · exact .inr (.inl ⟨_, rfl, .crcInit, by simp⟩)
        · exact .inr (.inr rfl)
      · exact .inr (.inl ⟨_, rfl, .crcByte _, by simp⟩)
      · exact .inr (.inl ⟨_, rfl, .wrCrcExpect v, by simp⟩)
      · exact .inr (.inr rfl)

theorem hostRow_of_mem_ctrlRows {v : Word} {i : Instr} (h : i ∈ ctrlRows v) : HostRow i := by
  unfold ctrlRows at h
  simp only [List.mem_append, List.mem_ite_nil_right, List.mem_singleton] at h
  rcases h with (⟨_, rfl⟩ | ⟨_, rfl⟩) | ⟨_, rfl⟩
  · exact .abort
  · exact .start
  · exact .eoi

theorem hostRow_of_decodeHost {base : Nat} {a : Access} {is : List Instr} (h : decodeHost base a = .ok is) :
    ∀ i ∈ is, HostRow i := by
  intro i hi
  rcases decodeHost_cases h with ⟨v, _, rfl⟩ | ⟨j, rfl, hj, _⟩ | rfl
  · exact hostRow_of_mem_ctrlRows hi
  · rwa [List.mem_singleton.1 hi]
  · cases hi

/-- The writes of the host rows, but for START's, ABORT's and a push that is accepted or fails: the value read, EOI_SEEN,
IN_DROP, OUT_FIFO's oldest byte, CONFIG, OUT_LIMIT and the CRC unit. -/
structure Aside where
  rdata : Word
  eoiSeen : Bool
  inDrop : Bool
  outFifo : List Byte
  config : BitVec 2
  outLimit : Word
  crc : Crc

/-- s after such writes. -/
def State.aside (s : State) (w : Aside) : State :=
  { s with
    rdata := w.rdata
    eoiSeen := w.eoiSeen
    inDrop := w.inDrop
    out := { s.out with fifo := w.outFifo }
    ctl := { s.ctl with config := w.config, outLimit := w.outLimit }
    crc := w.crc }

/-- What those registers hold. -/
def State.asides (s : State) : Aside :=
  { rdata := s.rdata, eoiSeen := s.eoiSeen, inDrop := s.inDrop, outFifo := s.out.fifo, config := s.ctl.config
    outLimit := s.ctl.outLimit, crc := s.crc }

/-- s after START (R102). -/
def State.started (s : State) : State :=
  { s.clearStream with ctl := { s.ctl with allow := s.allowRfcDist, lim := s.ctl.outLimit }, top := .running }

/-- s after ABORT (R104). -/
def State.aborted (s : State) : State := { s.clearStream with top := .idle }

@[simp] theorem State.started_top (s : State) : s.started.top = .running := rfl
@[simp] theorem State.aborted_top (s : State) : s.aborted.top = .idle := rfl

/-- What a host row other than START and ABORT can leave of s. -/
inductive DataEffect (s : State) : State → Prop where
  | fails (c : ErrCause) (hr : s.top = .running) : DataEffect s (s.fail c)
  | accepts (b : Byte) (hf : s.inp.fifo.length ≠ s.cfg.inDepth) :
    DataEffect s { s with inp := { s.inp with fifo := s.inp.fifo ++ [b] } }
  | aside (w : Aside) (hf : w.outFifo.length ≤ s.out.fifo.length) : DataEffect s (s.aside w)

/-- What a host row can leave of s. -/
inductive HostEffect (s : State) : State → Prop where
  | start : HostEffect s s.started
  | abort : HostEffect s s.aborted
  | data {t : State} (h : DataEffect s t) : HostEffect s t

theorem execEoi_eq (s : State) :
    execEoi s = .next { s with eoiSeen := if s.top = .running then true else s.eoiSeen } := by
  unfold execEoi
  split <;> rename_i hr
  · rw [if_pos hr]
  all_goals rw [if_neg (by simp [hr])]

theorem DataEffect.of_execPush {b : Byte} {s t : State} (h : execPush b s = .next t) : DataEffect s t := by
  unfold execPush at h
  split at h <;> cases h
  · rename_i hr
    unfold pushRunning
    split_ifs with he hf
    · exact .fails _ hr
    · exact .fails _ hr
    · exact .accepts b (by simpa [State.inFull] using hf)
  all_goals exact .aside { s.asides with inDrop := true } (Nat.le_refl _)

theorem DataEffect.of_execPop {s t : State} (h : execPop s = .next t) : DataEffect s t := by
  unfold execPop at h
  split at h <;> cases h
  · rename_i b rest hf
    exact .aside { s.asides with rdata := _, outFifo := rest } (by simp [hf])
  · exact .aside { s.asides with rdata := 0 } (Nat.le_refl _)

/-- The rows of the host that are no command write what `DataEffect` lists, and so does EOI (R103, R105 to R108, R208 to
R211). -/
theorem HostRow.dataEffect {i : Instr} (hi : HostRow i) (hstart : i ≠ .start) (habort : i ≠ .abort) {s t : State}
    (h : exec i s = .next t) : DataEffect s t := by
  cases hi with
  | start => exact absurd rfl hstart
  | abort => exact absurd rfl habort
  | push b => exact .of_execPush h
  | pop => exact .of_execPop h
  | eoi =>
    rw [exec_eoi, execEoi_eq] at h
    cases h
    exact .aside { s.asides with eoiSeen := _ } (Nat.le_refl _)
  | wrConfig v => cases h; exact .aside { s.asides with config := _ } (Nat.le_refl _)
  | wrOutLimit v => cases h; exact .aside { s.asides with outLimit := _ } (Nat.le_refl _)
  | wrCrcExpect v => cases h; exact .aside { s.asides with crc := _ } (Nat.le_refl _)
  | rdReg k => cases h; exact .aside { s.asides with rdata := _ } (Nat.le_refl _)
  | crcInit => cases h; exact .aside { s.asides with crc := _ } (Nat.le_refl _)
  | crcByte b => cases h; exact .aside { s.asides with crc := _ } (Nat.le_refl _)
  | rdCrcValue => cases h; exact .aside { s.asides with rdata := _ } (Nat.le_refl _)
  | rdCrcStatus => cases h; exact .aside { s.asides with rdata := _ } (Nat.le_refl _)

/-- Every host row leaves what `HostEffect` lists. -/
theorem HostRow.effect {i : Instr} (hi : HostRow i) {s t : State} (h : exec i s = .next t) : HostEffect s t := by
  by_cases hstart : i = .start
  · subst hstart
    cases h
    exact .start
  · by_cases habort : i = .abort
    · subst habort
      cases h
      exact .abort
    · exact .data (hi.dataEffect hstart habort h)

/-! ## A CTRL write -/

/-- s after EOI (R103). -/
def State.eoiGiven (s : State) : State := { s with eoiSeen := if s.top = .running then true else s.eoiSeen }

/-- What a CTRL write leaves: ABORT, START and EOI, those whose bits are set, in that order (R24). -/
def State.ctrlWritten (s : State) (v : Word) : State :=
  let a := if v.getLsbD 2 then s.aborted else s
  let b := if v.getLsbD 0 then a.started else a
  if v.getLsbD 1 then b.eoiGiven else b

theorem runAll_ctrlRows (v : Word) (s : State) : runAll (ctrlRows v) s = .next (s.ctrlWritten v) := by
  have hstart : ∀ u, execStart u = .next u.started := fun _ => rfl
  have habort : ∀ u, execAbort u = .next u.aborted := fun _ => rfl
  have heoi : ∀ u, execEoi u = .next u.eoiGiven := execEoi_eq
  unfold ctrlRows State.ctrlWritten
  cases v.getLsbD 2 <;> cases v.getLsbD 0 <;> cases v.getLsbD 1 <;> simp [runAll, hstart, habort, heoi]

/-- An invariant that does not look at the turns to come holds after every step where INF's turn and each host row keep it
and the reset input sets it up (R75). -/
theorem step_keeps {P : State → Prop} (agenda : ∀ s rest, P s → P { s with agenda := rest })
    (inf : ∀ s t, P s → infStep s = .next t → P t) (host : ∀ s t, P s → HostEffect s t → P t)
    (reset : ∀ (s : State) (rest : List Turn), P { State.resetWith s.cfg with agenda := rest, rdata := s.rdata }) {s t : State} (hs : P s)
    (h : step s = .next t) : P t := by
  rcases step_cases h with ⟨_, h⟩ | ⟨rest, _, h⟩ | ⟨a, rest, is, _, hd, h⟩ | ⟨rest, _, rfl⟩
  · exact inf s t hs h
  · exact inf _ t (agenda s rest hs) h
  · refine runAll_induct (R := fun u v => P u → P v) (fun _ hu => hu) (fun _ _ _ h1 h2 hu => h2 (h1 hu)) is _ t ?_ h
      (agenda s rest hs)
    exact fun i hi u v huv hu => host u v hu ((hostRow_of_decodeHost hd i hi).effect huv)
  · exact reset s rest

end Sys2Proof.Machine
end

section
/-! PROOF. What `Advances` says of each register of the front, and the rules on steps that follow from it: the bit
reader's form (R46), the hold flags (R218) and the error registers (R214). -/

namespace Sys2Proof.Machine

/-- A step that advances takes at least its context's bits, and no more than there are (R62, R63). -/
theorem Advances.inp {c : Ctx} {s t : State} (h : Advances c s t) (hn : c.need ≤ s.inp.cnt.toNat) :
    ∃ n, c.need ≤ n ∧ n ≤ s.inp.cnt.toNat ∧ t.inp = (s.dropBits n).inp := by
  rcases h with ⟨m, hm, h⟩ | ⟨_, _, _, h⟩
  · have hcnt : (s.unhold.front.drop c.need).inp.cnt.toNat ≤ s.inp.cnt.toNat - c.need := Nat.mod_le _ _
    rw [Front.drop_drop] at h
    refine ⟨c.need + m, Nat.le_add_right _ _, by omega, ?_⟩
    rcases h with h | ⟨x, h⟩
    · exact congrArg Front.inp h
    · exact congrArg Front.inp h
  · exact ⟨c.need, Nat.le_refl _, hn, congrArg Front.inp h⟩

/-- A step that advances clears both hold flags (R218). -/
theorem Advances.flags {c : Ctx} {s t : State} (h : Advances c s t) : t.heldIn = false ∧ t.heldOut = false := by
  rcases h with ⟨m, _, h | ⟨x, h⟩⟩ | ⟨_, _, _, h⟩
  all_goals exact ⟨congrArg Front.heldIn h, congrArg Front.heldOut h⟩

/-- The error registers name cause x at the cursor of s (R214). -/
def State.Names (s : State) (x : ErrCause) : Prop :=
  s.err = { kind := BitVec.ofNat 4 x.kind.code, cause := BitVec.ofNat 8 x.code, bits := s.inp.cnt, byte := s.inp.count }

/-- A step that advances goes on, or ends in FAILED with its cause named, or ends in DONE after the trailer (R20). -/
theorem Advances.ending {c : Ctx} {s t : State} (h : Advances c s t) :
    (t.top = s.top ∧ t.err = s.err) ∨ (t.top = .failed ∧ ∃ x, t.Names x) ∨
    (t.top = .done ∧ t.err = s.err ∧ c = .trailer ∧ t.zl.trailerN = 4 ∧ t.zl.trailerVal = t.adler) := by
  rcases h with ⟨m, _, h | ⟨x, h⟩⟩ | ⟨hc, hn, hv, h⟩
  · exact .inl ⟨congrArg Front.top h, congrArg Front.err h⟩
  · have hi : t.inp = ((s.unhold.front.drop c.need).drop m).inp := congrArg Front.inp h
    refine .inr (.inl ⟨congrArg Front.top h, x, ?_⟩)
    rw [State.Names, hi]
    exact congrArg Front.err h
  · exact .inr (.inr ⟨congrArg Front.top h, congrArg Front.err h, hc, hn, hv⟩)

/-! ## How many bits a step needs -/

theorem extraBits_le {tab : List (Nat × Nat)} {n : Nat} (h : ∀ p ∈ tab, p.2 ≤ n) (i : Nat) :
    (tab.getD i (0, 0)).2 ≤ n := by
  by_cases hi : i < tab.length
  · rw [List.getD_eq_getElem _ _ hi]
    exact h _ (List.getElem_mem hi)
  · rw [List.getD_eq_default _ _ (Nat.le_of_not_lt hi)]
    exact Nat.zero_le n

/-- No step reads more than the 16 bits of LEN (R62, R81 to R92). -/
theorem Ctx.need_le (c : Ctx) : c.need ≤ 16 := by
  cases c with
  | lenExtra sym => exact Nat.le_trans (extraBits_le (n := 5) (by decide) _) (by decide)
  | distExtra sym => exact Nat.le_trans (extraBits_le (n := 13) (by decide) _) (by decide)
  | clSym t h | llSym t h | dSym t h =>
    unfold Ctx.need
    dsimp only
    split <;> decide
  | copy len dist => exact Nat.zero_le 16
  | _ => decide

/-! ## The bit reader -/

theorem dropBits_cnt (s : State) (n : Nat) : (s.dropBits n).inp.cnt.toNat = s.inp.cnt.toNat - n := by
  have := s.inp.cnt.isLt
  simp only [State.dropBits_inp, BitVec.toNat_ofNat]
  omega

theorem dropBits_buf (s : State) (n : Nat) : (s.dropBits n).inp.buf.toNat = s.inp.buf.toNat / 2 ^ n := by
  simp [Nat.shiftRight_eq_div_pow]

theorem takeByte_cnt {s : State} (h : s.inp.cnt.toNat < 16) (b : Byte) (rest : List Byte) :
    (s.takeByte b rest).inp.cnt.toNat = s.inp.cnt.toNat + 8 := by
  simp only [State.takeByte_inp, BitVec.toNat_add, show (8 : BitVec 5).toNat = 8 from rfl]
  omega

/-- A byte taken stands above the bits that are there (R61). -/
theorem takeByte_buf {s : State} (h : s.inp.cnt.toNat < 16) (hb : s.inp.buf.toNat < 2 ^ s.inp.cnt.toNat) (b : Byte)
    (rest : List Byte) :
    (s.takeByte b rest).inp.buf.toNat = b.toNat * 2 ^ s.inp.cnt.toNat + s.inp.buf.toNat := by
  have hlt : b.toNat * 2 ^ s.inp.cnt.toNat < 2 ^ 24 :=
    calc b.toNat * 2 ^ s.inp.cnt.toNat < 2 ^ 8 * 2 ^ s.inp.cnt.toNat :=
          Nat.mul_lt_mul_of_pos_right b.isLt (Nat.two_pow_pos _)
      _ = 2 ^ (8 + s.inp.cnt.toNat) := (Nat.pow_add ..).symm
      _ ≤ 2 ^ 24 := Nat.pow_le_pow_right (by decide) (by omega)
  have hshift : (b.setWidth 24 <<< s.inp.cnt.toNat).toNat = b.toNat <<< s.inp.cnt.toNat := by
    rw [BitVec.toNat_shiftLeft, BitVec.toNat_setWidth, Nat.mod_eq_of_lt (Nat.lt_trans b.isLt (by decide)),
      Nat.shiftLeft_eq, Nat.mod_eq_of_lt hlt]
  rw [State.takeByte_inp, BitVec.toNat_or, hshift, Nat.or_comm, ← Nat.shiftLeft_add_eq_or_of_lt hb, Nat.shiftLeft_eq]

theorem takeByte_count {s : State} (h : s.inp.count ≠ 0xFFFFFFFF) (b : Byte) (rest : List Byte) :
    (s.takeByte b rest).inp.count.toNat = s.inp.count.toNat + 1 := by
  have hlt := s.inp.count.isLt
  have hne : s.inp.count.toNat ≠ 4294967295 := fun e => h (BitVec.eq_of_toNat_eq e)
  simp only [State.takeByte_inp, BitVec.toNat_add, show (1 : Word).toNat = 1 from rfl]
  omega

/-- Of the reader's form, what does not depend on PHASE (R46). -/
structure Input.Sound (i : Input) : Prop where
  cnt : i.cnt.toNat ≤ 23
  buf : i.buf.toNat < 2 ^ i.cnt.toNat
  taken : i.cnt.toNat ≤ 8 * i.count.toNat

theorem State.ReaderInv.sound {s : State} (h : s.ReaderInv) : Input.Sound s.inp :=
  ⟨h.cnt, h.buf, h.taken⟩

theorem State.ReaderInv.of_sound {s : State} (h : Input.Sound s.inp)
    (hb : s.top = .running → s.inp.cnt.toNat ≤ 7 ∨ ∃ c, s.ctx = some c ∧ s.inp.cnt.toNat ≤ c.need + 7) : s.ReaderInv :=
  ⟨h.cnt, h.buf, h.taken, hb⟩

theorem Input.Sound.dropBits {s : State} (h : Input.Sound s.inp) {n : Nat} (hn : n ≤ s.inp.cnt.toNat) :
    Input.Sound (s.dropBits n).inp where
  cnt := by
    have := h.cnt
    rw [dropBits_cnt]
    omega
  buf := by
    rw [dropBits_cnt, dropBits_buf, Nat.div_lt_iff_lt_mul (Nat.two_pow_pos n), ← Nat.pow_add, Nat.sub_add_cancel hn]
    exact h.buf
  taken := by
    have := h.taken
    rw [dropBits_cnt, show (s.dropBits n).inp.count = s.inp.count from rfl]
    omega

theorem Input.Sound.takeByte {s : State} (h : Input.Sound s.inp) (hn : s.inp.cnt.toNat < 16)
    (hc : s.inp.count ≠ 0xFFFFFFFF) (b : Byte) (rest : List Byte) : Input.Sound (s.takeByte b rest).inp where
  cnt := by
    rw [takeByte_cnt hn]
    omega
  buf := by
    have hbyte := b.isLt
    have hb := h.buf
    rw [takeByte_cnt hn, takeByte_buf hn hb, Nat.pow_add]
    nlinarith [Nat.two_pow_pos s.inp.cnt.toNat]
  taken := by
    have := h.taken
    rw [takeByte_cnt hn, takeByte_count hc]
    omega

/-- A fill keeps the reader's form: its context asked for at most 16 bits and did not have them (R61). -/
theorem State.ReaderInv.fill {s : State} (h : s.ReaderInv) {c : Ctx} (hc : s.ctx = some c)
    (hn : s.inp.cnt.toNat < c.need) : s.fill.ReaderInv := by
  have hneed := Ctx.need_le c
  rcases s.fill_cases with ⟨b, rest, _, hw, e⟩ | ⟨_, _, e⟩ | ⟨_, _, e⟩ | ⟨_, _, e⟩ <;> rw [e]
  · refine .of_sound (h.sound.takeByte (s := s.unhold) (Nat.lt_of_lt_of_le hn hneed) hw b rest) fun _ =>
      .inr ⟨c, hc, ?_⟩
    rw [takeByte_cnt (s := s.unhold) (Nat.lt_of_lt_of_le hn hneed), State.unhold_inp]
    omega
  · exact .of_sound h.sound fun hr => by cases hr
  · exact .of_sound h.sound fun hr => by cases hr
  · exact { h with }

theorem State.ReaderInv.infStep {s t : State} (h : s.ReaderInv) (hs : infStep s = .next t) : t.ReaderInv := by
  rcases infStep_front hs with ⟨_, rfl⟩ | ⟨hr, c, hc, ⟨hn, rfl⟩ | ⟨hn, hadv | ⟨_, _, rfl⟩⟩⟩
  · exact h
  · exact h.fill hc hn
  · obtain ⟨n, hle, hcnt, hinp⟩ := hadv.inp hn
    refine .of_sound (hinp ▸ h.sound.dropBits hcnt) fun _ => .inl ?_
    have hb : s.inp.cnt.toNat ≤ c.need + 7 := by
      rcases h.boundary hr with hb | ⟨c', hc', hb⟩
      · omega
      · rwa [Option.some.inj (hc.symm.trans hc')]
    rw [hinp, dropBits_cnt]
    omega
  · exact { h with }

theorem State.ReaderInv.host {s t : State} (hs : s.ReaderInv) (h : HostEffect s t) : t.ReaderInv := by
  cases h with
  | start | abort => exact ⟨Nat.zero_le _, Nat.one_pos, Nat.zero_le _, fun _ => .inl (Nat.zero_le _)⟩
  | data h =>
    cases h with
    | fails x hr => exact .of_sound hs.sound fun hr => by cases hr
    | accepts b hf => exact { hs with }
    | aside w hf => exact { hs with }

theorem State.ReaderInv.reset (cfg : Config) (agenda : List Turn) (rdata : Word) :
    State.ReaderInv { State.resetWith cfg with agenda := agenda, rdata := rdata } :=
  ⟨Nat.zero_le _, Nat.one_pos, Nat.zero_le _, fun _ => .inl (Nat.zero_le _)⟩

/-- Settles O43: INF fills only below 16 bits and otherwise takes what its context asks for, and of the host's rows only
START and ABORT write the reader. -/
theorem stepKeepsReader : Obligations.StepKeepsReader :=
  fun _ _ hs h => step_keeps (fun _ _ hs => { hs with }) (fun _ _ hs => hs.infStep) (fun _ _ hs => hs.host)
    (fun _ _ => .reset _ _ _) hs h

end Sys2Proof.Machine
end

section
/-! PROOF. The unread bits as a list: what taking bits and taking a byte do to it (R19, R59, R61 to R63). -/

namespace Sys2Proof.Machine

@[simp] theorem natBits_length (n v : Nat) : (natBits n v).length = n := by
  induction n generalizing v with
  | zero => rfl
  | succ n ih => simp [natBits, ih]

theorem natBits_add (n m v : Nat) : natBits (n + m) v = natBits n v ++ natBits m (v / 2 ^ n) := by
  induction n generalizing v with
  | zero => simp [natBits]
  | succ n ih =>
    rw [Nat.succ_add, natBits, natBits, ih, Nat.div_div_eq_div_mul, ← Nat.pow_succ']
    rfl

/-- Bits from n on do not reach the low n. -/
theorem natBits_add_mul (n v w : Nat) : natBits n (w * 2 ^ n + v) = natBits n v := by
  induction n generalizing v w with
  | zero => rfl
  | succ n ih =>
    have hw : w * 2 ^ (n + 1) = 2 * (w * 2 ^ n) := by ring
    rw [natBits, natBits, hw, Nat.mul_add_mod, Nat.mul_add_div Nat.two_pos, ih]

theorem natBits_drop {n m : Nat} (h : n ≤ m) (v : Nat) : (natBits m v).drop n = natBits (m - n) (v / 2 ^ n) := by
  obtain ⟨k, rfl⟩ := Nat.exists_eq_add_of_le h
  rw [natBits_add, List.drop_left' (natBits_length n v), Nat.add_sub_cancel_left]

/-- INF's turn moved the cursor on and took as many bits from the front (R19). -/
def ReadsOn (s t : State) : Prop := s.bitpos ≤ t.bitpos ∧ t.unread = s.unread.drop (t.bitpos - s.bitpos)

theorem ReadsOn.of_inp {s t : State} (h : t.inp = s.inp) : ReadsOn s t := by
  simp [ReadsOn, State.bitpos, State.unread, h]

theorem ReadsOn.dropBits {s t : State} (hs : Input.Sound s.inp) {n : Nat} (hn : n ≤ s.inp.cnt.toNat)
    (h : t.inp = (s.dropBits n).inp) : ReadsOn s t := by
  have htaken := hs.taken
  have hpos : t.bitpos = s.bitpos + n := by
    rw [State.bitpos, h, dropBits_cnt, State.bitpos, show (s.dropBits n).inp.count = s.inp.count from rfl]
    omega
  refine ⟨by omega, ?_⟩
  rw [hpos, Nat.add_sub_cancel_left, State.unread, h, dropBits_cnt, dropBits_buf, State.unread,
    List.drop_append_of_le_length (by rwa [natBits_length]), natBits_drop hn]
  rfl

/-- A byte taken moves from IN_FIFO's front to BITBUF's end, and the cursor stays (R61). -/
theorem ReadsOn.takeByte {s : State} (hs : Input.Sound s.inp) (hn : s.inp.cnt.toNat < 16) {b : Byte} {rest : List Byte}
    (hf : s.inp.fifo = b :: rest) (hc : s.inp.count ≠ 0xFFFFFFFF) : ReadsOn s (s.takeByte b rest) := by
  have hpos : (s.takeByte b rest).bitpos = s.bitpos := by
    rw [State.bitpos, takeByte_cnt hn, takeByte_count hc, State.bitpos]
    omega
  have hdiv : (b.toNat * 2 ^ s.inp.cnt.toNat + s.inp.buf.toNat) / 2 ^ s.inp.cnt.toNat = b.toNat := by
    rw [Nat.mul_comm, Nat.mul_add_div (Nat.two_pow_pos _), Nat.div_eq_of_lt hs.buf, Nat.add_zero]
  refine ⟨hpos.ge, ?_⟩
  rw [hpos, Nat.sub_self, List.drop_zero, State.unread, takeByte_cnt hn, takeByte_buf hn hs.buf, natBits_add,
    natBits_add_mul, hdiv, State.unread, hf]
  simp

/-- Settles O39: a fill moves a byte from the FIFO to BITBUF, and every other turn takes bits from BITBUF's low end. -/
theorem infReadsInOrder : Obligations.InfReadsInOrder := by
  intro s t hs h
  change ReadsOn s t
  rcases infStep_front h with ⟨_, rfl⟩ | ⟨hr, c, hc, ⟨hn, rfl⟩ | ⟨hn, hadv | ⟨_, _, rfl⟩⟩⟩
  · exact .of_inp rfl
  · rcases s.fill_cases with ⟨b, rest, hf, hw, e⟩ | ⟨_, _, e⟩ | ⟨_, _, e⟩ | ⟨_, _, e⟩ <;> rw [e]
    · exact .takeByte (s := s.unhold) hs.sound (Nat.lt_of_lt_of_le hn (Ctx.need_le c)) hf hw
    all_goals exact .of_inp rfl
  · obtain ⟨n, _, hcnt, hinp⟩ := hadv.inp hn
    exact .dropBits hs.sound hcnt hinp
  · exact .of_inp rfl

end Sys2Proof.Machine
end

section
/-! PROOF. The output side over INF's turn: it emits one byte or stays (R67, R114, R136); and the FIFOs' depths, the
Adler-32 sums and the error registers over every step (R27, R45, R54, R213). -/

namespace Sys2Proof.Machine

/-- What INF's turn does to all of `Outer`: nothing, or one byte emitted into a FIFO that has space (R136, R218). -/
def Emission (s t : State) : Prop :=
  t.outer = s.outer ∨
  (s.canEmit ∧ s.out.count ≠ 0xFFFFFFFF ∧ ∃ b, t.outer = { s.outer with out := s.out.emitted b })

theorem Emission.of_emit {s u : State} {b : Byte} {k : State → State} (hu : u.outer = s.outer) (hc : s.canEmit)
    (hk : ∀ v, (k v).outer = v.outer) : Emission s (u.emit b k) := by
  have hout : u.out = s.out := congrArg Outer.out hu
  rcases u.emit_cases b k with ⟨_, e⟩ | ⟨_, _, e⟩ | ⟨hm, e⟩ <;> rw [e]
  · exact .inl hu
  · exact .inl hu
  · refine .inr ⟨hc, hout ▸ hm.2, b, ?_⟩
    rw [hk, ← hu, ← hout]
    rfl

theorem Emission.of_infEmit {s t : State} {k : State → Out} (h : s.infEmit k = .next t)
    (hk : s.canEmit → k s.unhold = .next t → Emission s t) : Emission s t := by
  rcases State.infEmit_cases h with ⟨_, hc, h⟩ | ⟨_, _, rfl⟩ | ⟨_, rfl⟩
  · exact hk hc h
  · exact .inl rfl
  · exact .inl rfl

theorem EmitRow.emission {i : Instr} (hi : EmitRow i) {s t : State} (h : exec i s = .next t) : Emission s t := by
  cases hi with
  | storedByte b =>
    rw [exec_storedByte, execStoredByte] at h
    refine .of_infEmit h fun hc h => ?_
    cases h
    refine .of_emit rfl hc fun v => ?_
    extract_lets
    split
    · exact State.blockEnd_outer _
    · rfl
  | litEmit =>
    rw [exec_lit, execLit] at h
    refine .of_infEmit h fun hc h => ?_
    cases h
    exact .of_emit rfl hc fun _ => rfl
  | matchCopy len dist =>
    rw [exec_matchCopy, execMatchCopy] at h
    refine .of_infEmit h fun hc h => ?_
    split at h
    · cases h
    · cases h
      refine .of_emit rfl hc fun v => ?_
      extract_lets
      split <;> rfl

theorem State.fill_outer (s : State) : s.fill.outer = s.outer := by
  rcases s.fill_cases with ⟨_, _, _, _, e⟩ | ⟨_, _, e⟩ | ⟨_, _, e⟩ | ⟨_, _, e⟩ <;> rw [e] <;> rfl

/-- INF's turn emits one byte or leaves the output side; the configuration and the latches stay in any case. -/
theorem infStep_emission {s t : State} (h : infStep s = .next t) : Emission s t := by
  rcases infStep_cases h with
    ⟨_, rfl⟩ | ⟨_, c, _, ⟨_, rfl⟩ | ⟨_, ⟨_, _, rfl⟩ | ⟨_, _, rfl⟩ | ⟨i, left, hd, he⟩⟩⟩
  · exact .inl rfl
  · exact .inl s.fill_outer
  · exact .inl rfl
  · exact .inl rfl
  · rcases row_performer i with hi | hi | hi
    · exact .inl (hi.outer he)
    · exact hi.emission he
    · exact absurd hi (not_hostRow_of_decode hd)

/-- The output side's part of it. -/
theorem Emission.out {s t : State} (h : Emission s t) :
    t.out = s.out ∨ (s.canEmit ∧ s.out.count ≠ 0xFFFFFFFF ∧ ∃ b, t.out = s.out.emitted b) :=
  h.imp (congrArg Outer.out) fun ⟨hc, hn, b, e⟩ => ⟨hc, hn, b, congrArg Outer.out e⟩

theorem infStep_cfg {s t : State} (h : infStep s = .next t) : t.cfg = s.cfg := by
  rcases infStep_emission h with e | ⟨_, _, _, e⟩
  · exact congrArg Outer.cfg e
  · exact congrArg Outer.cfg e

theorem infStep_ctl {s t : State} (h : infStep s = .next t) : t.ctl = s.ctl := by
  rcases infStep_emission h with e | ⟨_, _, _, e⟩
  · exact congrArg Outer.ctl e
  · exact congrArg Outer.ctl e

/-- START's output side holds no byte, whatever the window's cells hold (R101). -/
theorem holds_nil (win : List Host.Cell) (s1 s2 : BitVec 16) :
    Output.holds { fifo := [], count := 0, win := win, wp := 0, hist := 0, s1 := s1, s2 := s2 } [] where
  count := rfl
  hist := rfl
  wp := rfl
  cells := fun d h1 h2 => by
    have : d ≤ 0 := h2
    omega

/-- An emit adds its byte to the history: it is the most recent one, and every older byte is one further away (R67, R68). -/
theorem Output.holds.emitted {o : Output} {bs : List Byte} (h : o.holds bs) (hc : o.count ≠ 0xFFFFFFFF) (b : Byte) :
    (o.emitted b).holds (bs ++ [b]) := by
  have he := o.emitted_emits b hc
  have hwp : (o.emitted b).wp = o.wp + 1 := rfl
  refine ⟨?_, ?_, ?_, fun d h1 h2 => ?_⟩
  · rw [he.count, h.count, List.length_append, List.length_singleton]
  · rw [he.hist, h.hist, List.length_append, List.length_singleton]
    omega
  · rw [he.wp, h.wp, List.length_append, List.length_singleton]
    omega
  · rw [List.length_append, List.length_singleton] at h2 ⊢
    obtain ⟨e, rfl⟩ := Nat.exists_eq_add_of_le' h1
    rw [hwp, Nat.add_sub_add_right]
    rcases Nat.eq_zero_or_pos e with rfl | he0
    · rw [winCell_succ_one, he.cell]
      simp
    · have hlt : e < Config.wsize := by
        rw [Config.wsize]
        omega
      rw [winCell_succ _ _ hlt, he.others _ (winCell_ne_wp _ _ he0 hlt), h.cells e he0 (by omega),
        List.getElem?_append_left (by omega)]

/-- Settles O37: START empties the history, and INF's turn leaves the output side or emits one byte. -/
theorem windowHoldsHistory : Obligations.WindowHoldsHistory := by
  refine ⟨fun s t h => ?_, fun s t bs hs h => ?_⟩
  · cases h
    exact holds_nil _ _ _
  · rcases (infStep_emission h).out with e | ⟨_, hc, b, e⟩
    · exact .inl e
    · exact .inr ⟨b, by rw [e]; rfl, by rw [e]; exact hs.emitted hc b⟩

/-! ## The FIFOs and the sums -/

/-- No turn of INF puts a byte into IN_FIFO (R61). -/
theorem infStep_inFifo {s t : State} (h : infStep s = .next t) : t.inp.fifo.length ≤ s.inp.fifo.length := by
  rcases infStep_front h with ⟨_, rfl⟩ | ⟨hr, c, hc, ⟨hn, rfl⟩ | ⟨hn, hadv | ⟨_, _, rfl⟩⟩⟩
  · exact Nat.le_refl _
  · rcases s.fill_cases with ⟨b, rest, hf, _, e⟩ | ⟨_, _, e⟩ | ⟨_, _, e⟩ | ⟨_, _, e⟩ <;> rw [e]
    · simp [hf]
    all_goals exact Nat.le_refl _
  · obtain ⟨n, _, _, hinp⟩ := hadv.inp hn
    rw [hinp]
    exact Nat.le_refl _
  · exact Nat.le_refl _

theorem State.FifoInv.infStep {s t : State} (hs : s.FifoInv) (h : infStep s = .next t) : t.FifoInv := by
  have hcfg := infStep_cfg h
  refine ⟨by rw [hcfg]; exact Nat.le_trans (infStep_inFifo h) hs.input, ?_⟩
  rw [hcfg]
  rcases (infStep_emission h).out with e | ⟨hc, hn, b, e⟩ <;> rw [e]
  · exact hs.output
  · rw [(s.out.emitted_emits b hn).fifo, List.length_append, List.length_singleton]
    exact hc

theorem State.FifoInv.host {s t : State} (hs : s.FifoInv) (h : HostEffect s t) : t.FifoInv := by
  have hin := hs.input
  cases h with
  | start | abort => exact ⟨Nat.zero_le _, Nat.zero_le _⟩
  | data h =>
    cases h with
    | fails x hr => exact { hs with }
    | accepts b hf =>
      refine ⟨?_, hs.output⟩
      rw [List.length_append, List.length_singleton]
      exact Nat.lt_of_le_of_ne hin hf
    | aside w hf => exact ⟨hin, Nat.le_trans hf hs.output⟩

/-- The sums of an empty stream (R101, R115). -/
theorem State.AdlerInv.of_empty {s : State} (h1 : s.out.s1 = 1) (h2 : s.out.s2 = 0) : s.AdlerInv :=
  ⟨by rw [h1]; decide, by rw [h2]; decide⟩

theorem State.AdlerInv.infStep {s t : State} (hs : s.AdlerInv) (h : infStep s = .next t) : t.AdlerInv := by
  rcases (infStep_emission h).out with e | ⟨_, hn, b, e⟩
  · exact ⟨by rw [e]; exact hs.s1, by rw [e]; exact hs.s2⟩
  · have he := s.out.emitted_emits b hn
    refine ⟨?_, ?_⟩
    · rw [e, he.s1]
      exact Nat.mod_lt _ (by decide)
    · rw [e, he.s2]
      exact Nat.mod_lt _ (by decide)

theorem State.AdlerInv.host {s t : State} (hs : s.AdlerInv) (h : HostEffect s t) : t.AdlerInv := by
  cases h with
  | start | abort => exact .of_empty rfl rfl
  | data h =>
    cases h with
    | fails x hr => exact { hs with }
    | accepts b hf => exact { hs with }
    | aside w hf => exact { hs with }

/-! ## The error registers -/

theorem ErrCause.code_lt (x : ErrCause) : x.code < 2 ^ 8 := by
  cases x <;> decide

theorem ErrKind.code_lt (k : ErrKind) : k.code < 2 ^ 4 := by
  cases k <;> decide

/-- A state that has just failed names its cause, at the cursor where it stopped (R27, R214). -/
theorem State.ErrInv.of_names {s : State} {x : ErrCause} (htop : s.top = .failed) (hcnt : s.inp.cnt.toNat ≤ 23)
    (h : s.Names x) : s.ErrInv := by
  refine ⟨fun hne => absurd htop hne, fun _ => ⟨x, ?_⟩⟩
  rw [h]
  exact ⟨Nat.mod_eq_of_lt (ErrKind.code_lt _), Nat.mod_eq_of_lt (ErrCause.code_lt _), hcnt⟩

/-- A state that has not failed has clear error registers. -/
theorem State.ErrInv.of_clear {s : State} (htop : s.top ≠ .failed)
    (h : s.err = { kind := 0, cause := 0, bits := 0, byte := 0 }) : s.ErrInv :=
  ⟨fun _ => h, fun hf => absurd hf htop⟩

theorem State.ErrInv.fail {s : State} (hr : s.ReaderInv) (x : ErrCause) : (s.fail x).ErrInv :=
  .of_names (x := x) rfl hr.cnt rfl

theorem State.ErrInv.infStep {s t : State} (hr : s.ReaderInv) (hs : s.ErrInv) (h : infStep s = .next t) : t.ErrInv := by
  have hcnt := (hr.infStep h).cnt
  rcases infStep_front h with ⟨_, rfl⟩ | ⟨htop, c, hc, ⟨hn, rfl⟩ | ⟨hn, hadv | ⟨_, _, rfl⟩⟩⟩
  · exact hs
  · rcases s.fill_cases with ⟨b, rest, _, _, e⟩ | ⟨_, _, e⟩ | ⟨_, _, e⟩ | ⟨_, _, e⟩ <;> rw [e]
    · exact { hs with }
    · exact .of_names (s := s.unhold.fail .countWrap) rfl hr.cnt rfl
    · exact .of_names (s := s.unhold.fail .truncated) rfl hr.cnt rfl
    · exact { hs with }
  · have hclear := hs.clear (by simp [htop])
    rcases hadv.ending with ⟨ht, he⟩ | ⟨ht, x, he⟩ | ⟨ht, he, _⟩
    · exact .of_clear (by simp [ht, htop]) (he.trans hclear)
    · exact .of_names ht hcnt he
    · exact .of_clear (by simp [ht]) (he.trans hclear)
  · exact { hs with }

theorem State.ErrInv.host {s t : State} (hr : s.ReaderInv) (hs : s.ErrInv) (h : HostEffect s t) : t.ErrInv := by
  cases h with
  | start | abort => exact .of_clear (by simp) rfl
  | data h =>
    cases h with
    | fails x htop => exact .fail hr x
    | accepts b hf => exact { hs with }
    | aside w hf => exact { hs with }

/-- Settles O44: INF emits only into space and pops IN_FIFO only, sums are reduced at each emit, and Fail is the one
operation that writes the error registers of a stream. -/
theorem stepKeepsFifosSumsErrors : Obligations.StepKeepsFifosSumsErrors := by
  refine ⟨fun s t h => ⟨fun hs => ?_, fun hs => ?_⟩, fun s t hr hs h => ?_⟩
  · exact step_keeps (fun _ _ hs => { hs with }) (fun _ _ hs => hs.infStep) (fun _ _ hs => hs.host)
      (fun _ _ => ⟨Nat.zero_le _, Nat.zero_le _⟩) hs h
  · exact step_keeps (fun _ _ hs => { hs with }) (fun _ _ hs => hs.infStep) (fun _ _ hs => hs.host)
      (fun _ _ => .of_empty rfl rfl) hs h
  · refine (step_keeps (P := fun s => s.ReaderInv ∧ s.ErrInv) (fun _ _ hs => ⟨{ hs.1 with }, { hs.2 with }⟩)
      (fun _ _ hs h => ⟨hs.1.infStep h, hs.2.infStep hs.1 h⟩) (fun _ _ hs h => ⟨hs.1.host h, hs.2.host hs.1 h⟩)
      (fun _ _ => ?_) ⟨hr, hs⟩ h).2
    exact ⟨.reset _ _ _, .of_clear nofun rfl⟩

end Sys2Proof.Machine
end

section
/-! PROOF. Built tables are formed, and a decode inside a formed table finds a symbol or goes on inside it (R50, R51,
R122, R125). -/

namespace Sys2Proof

/-! ## Build -/

theorem symsOfLen_length (l s : Nat) (lens : List (BitVec 4)) : (symsOfLen l s lens).length = lenCount lens l := by
  induction lens generalizing s with
  | nil => rfl
  | cons x xs ih =>
    rw [symsOfLen, lenCount, List.countP_cons, ← lenCount, ← ih (s + 1)]
    split <;> simp [*]

theorem lt_of_mem_symsOfLen {l s : Nat} {lens : List (BitVec 4)} {x : BitVec 9} (h : x ∈ symsOfLen l s lens)
    (hs : s + lens.length ≤ 512) : x.toNat < s + lens.length := by
  induction lens generalizing s with
  | nil => cases h
  | cons y ys ih =>
    rw [List.length_cons] at hs ⊢
    have htail : x ∈ symsOfLen l (s + 1) ys → x.toNat < s + (ys.length + 1) := fun hx => by
      have := ih hx (by omega)
      omega
    unfold symsOfLen at h
    split at h
    · rcases List.mem_cons.1 h with rfl | h
      · rw [BitVec.toNat_ofNat]
        omega
      · exact htail h
    · exact htail h

theorem lenCount_le (lens : List (BitVec 4)) (l : Nat) : lenCount lens l ≤ lens.length := List.countP_le_length

theorem sum_indicator (ls : List Nat) (x : Nat) : (ls.map fun l => if x = l then 1 else 0).sum = ls.count x := by
  induction ls with
  | nil => rfl
  | cons l ls ih =>
    rw [List.map_cons, List.sum_cons, ih, List.count_cons, Nat.add_comm]
    simp only [beq_iff_eq, eq_comm (a := x) (b := l)]

/-- Each symbol has one length, so the counts of different lengths do not add up to more than there are. -/
theorem sum_lenCount_le {ls : List Nat} (hls : ls.Nodup) (lens : List (BitVec 4)) :
    (ls.map (lenCount lens)).sum ≤ lens.length := by
  induction lens with
  | nil => exact (List.sum_eq_zero fun n hn => by obtain ⟨l, _, rfl⟩ := List.mem_map.1 hn; rfl).le
  | cons x xs ih =>
    have hcons : ∀ l, lenCount (x :: xs) l = lenCount xs l + if x.toNat = l then 1 else 0 := fun l => by
      simp [lenCount, List.countP_cons]
    have hone : (ls.map fun l => if x.toNat = l then 1 else 0).sum ≤ 1 := by
      rw [sum_indicator]
      exact List.nodup_iff_count_le_one.1 hls _
    rw [List.map_congr_left fun l _ => hcons l, List.sum_map_add, List.length_cons]
    exact Nat.add_le_add ih hone

theorem buildTable_counts {lens : List (BitVec 4)} (h : lens.length < 512) :
    (buildTable lens).count.map BitVec.toNat = codeLens.map (lenCount lens) := by
  rw [buildTable, List.map_map]
  refine List.map_congr_left fun l _ => ?_
  have := lenCount_le lens l
  rw [Function.comp_apply, BitVec.toNat_ofNat, Nat.mod_eq_of_lt (by omega)]

theorem buildTable_syms_length (lens : List (BitVec 4)) :
    (buildTable lens).syms.length = (codeLens.map (lenCount lens)).sum := by
  rw [buildTable, List.length_flatMap]
  simp only [symsOfLen_length]

/-- Build's table is one as R50 describes it, over any alphabet that holds the symbols (R122). -/
theorem buildTable_formed {lens : List (BitVec 4)} {n : Nat} (h : lens.length ≤ n) (hn : n < 512) :
    (buildTable lens).formed n where
  lengths := rfl
  total := by
    rw [Table.total, buildTable_counts (by omega), buildTable_syms_length]
  size := by
    rw [buildTable_syms_length]
    exact Nat.le_trans (sum_lenCount_le (by decide) lens) h
  symbols := fun x hx => by
    obtain ⟨l, _, hl⟩ := List.mem_flatMap.1 hx
    have := lt_of_mem_symsOfLen hl (by omega)
    omega

/-! ## Counting codes by length -/

theorem Table.upTo_succ (t : Table) (l : Nat) : t.upTo (l + 1) = t.upTo l + t.countOf (l + 1) := by
  simp only [Table.upTo, Table.countOf, List.take_add_one, List.sum_append]
  rcases Nat.lt_or_ge l t.count.length with h | h
  · simp [h]
  · simp [h]

theorem Table.upTo_le_total (t : Table) (l : Nat) : t.upTo l ≤ t.total := by
  rw [Table.total, ← List.sum_take_add_sum_drop (t.count.map BitVec.toNat) l]
  exact Nat.le_add_right _ _

/-! ## One bit of a code -/

/-- The code value once its next bit is read: no less than before, and of one bit more than the codes that were (R125). -/
theorem Hc.within.code_bit {h : Hc} {t : Table} (hw : h.within t) (b : Bool) :
    h.code.toNat ≤ (h.code ||| BitVec.ofNat 16 b.toNat).toNat ∧
    (h.code ||| BitVec.ofNat 16 b.toNat).toNat < 2 ^ (h.len.toNat + 1) := by
  rw [BitVec.toNat_or]
  refine ⟨Nat.left_le_or, Nat.or_lt_two_pow hw.code ?_⟩
  have hb : (BitVec.ofNat 16 b.toNat).toNat < 2 := by cases b <;> decide
  exact Nat.lt_of_lt_of_le hb (Nat.le_self_pow (Nat.succ_ne_zero _) 2)

/-- What one bit of a code does inside a formed table (R125): it ends the code at a symbol of the alphabet, or fails, or
leaves the registers inside the table. -/
theorem codeBit_cases {t : Table} {h : Hc} {n : Nat} (hf : t.formed n) (hn : n < 512) (hw : h.within t) (b : Bool) :
    (∃ s, s < n ∧ codeBit t h b = .sym s) ∨ (∃ h', h'.within t ∧ codeBit t h b = .more h') ∨
    ∃ h', codeBit t h b = .invalid h' := by
  obtain ⟨hle, hlt⟩ := hw.code_bit b
  have hlen := hw.len
  have hindex := hw.index
  have hfirst := hw.first
  have hup := t.upTo_succ h.len.toNat
  have htotal := t.upTo_le_total (h.len.toNat + 1)
  have hsyms := hf.total
  have hsize := hf.size
  unfold codeBit
  dsimp only
  generalize h.code ||| BitVec.ofNat 16 b.toNat = code at *
  split_ifs with hcode hsingle hlast
  · have hplace : h.index.toNat + code.toNat - h.first.toNat < t.syms.length := by omega
    rw [List.getElem?_eq_getElem hplace]
    exact .inl ⟨_, hf.symbols _ (List.getElem_mem hplace), rfl⟩
  · exact .inr (.inr ⟨_, rfl⟩)
  · exact .inr (.inr ⟨_, rfl⟩)
  · refine .inr (.inl ⟨_, ?_, rfl⟩)
    have hpow : 2 ^ (h.len.toNat + 1) ≤ 2 ^ 15 := Nat.pow_le_pow_right (by decide) (by omega)
    have hl : (BitVec.ofNat 4 (h.len.toNat + 1)).toNat = h.len.toNat + 1 := by
      rw [BitVec.toNat_ofNat]
      omega
    have hshift : (code <<< 1).toNat = 2 * code.toNat := by
      rw [BitVec.toNat_shiftLeft, Nat.shiftLeft_eq]
      omega
    refine ⟨?_, ?_, ?_, ?_⟩
    · rw [hl]
      omega
    · rw [hl, hup, BitVec.toNat_ofNat]
      omega
    · rw [hshift, BitVec.toNat_ofNat]
      omega
    · rw [hl, hshift, Nat.pow_succ']
      omega

end Sys2Proof
end

section
/-! PROOF. Under the invariant every context is sound: what it reads decodes to a row, or goes on inside its table, or is
INVALID_CODE; so no fetch faults (R58). -/

namespace Sys2Proof.Machine

/-- The registers a context carries are ones that a run reaches (R50, R51, R52). -/
def Ctx.Sound (c : Ctx) : Prop :=
  match c with
  | .clSym t h => t.formed 19 ∧ h.within t
  | .llSym t h => t.formed 288 ∧ h.within t
  | .dSym t h => t.formed 32 ∧ h.within t
  | .lenExtra sym => 257 ≤ sym.toNat ∧ sym.toNat ≤ 285
  | .distExtra sym => sym.toNat < 30
  | _ => True

/-- What decoding sound registers can answer, for a code with table t: a row, an unfinished code inside the table, or
INVALID_CODE. -/
def Answers (t : Table) (r : Except Reject (Instr × List Bool)) : Prop :=
  (∃ i left, r = .ok (i, left)) ∨ (∃ h, h.within t ∧ r = .error (.more h)) ∨ ∃ h, r = .error (.invalidCode h)

theorem Answers.symTo {t : Table} {h : Hc} {n : Nat} {row : Nat → Option Instr} (hf : t.formed n) (hn : n < 512)
    (hw : h.within t) (hrow : ∀ s, s < n → (row s).isSome) {bits : List Bool} (hb : bits.length ≤ 1) :
    Answers t (symTo row (decodeCode t h bits)) := by
  unfold decodeCode
  split
  · exact .inr (.inr ⟨h, rfl⟩)
  · match bits with
    | [] => exact .inr (.inl ⟨h, hw, rfl⟩)
    | [b] =>
      rcases codeBit_cases hf hn hw b with ⟨s, hs, e⟩ | ⟨h', hw', e⟩ | ⟨h', e⟩
      · obtain ⟨i, hi⟩ := Option.isSome_iff_exists.1 (hrow s hs)
        exact .inl ⟨i, [], by simp [decodeBits, e, Sys2Proof.symTo, hi]⟩
      · exact .inr (.inl ⟨h', hw', by simp [decodeBits, e, Sys2Proof.symTo]⟩)
      · exact .inr (.inr ⟨h', by simp [decodeBits, e, Sys2Proof.symTo]⟩)
    | _ :: _ :: _ => simp at hb

theorem clRow_isSome {s : Nat} (h : s < 19) : (clRow s).isSome := by
  unfold clRow
  split_ifs
  · rfl
  · rfl
  · rfl
  · rfl
  · omega

theorem lenCodeRow_isSome {n : Nat} (h : n < 29) : (lenCodeRow n).isSome := by
  unfold lenCodeRow
  rw [List.getElem?_eq_getElem h]
  rfl

theorem distCodeRow_isSome {n : Nat} (h : n < 30) : (distCodeRow n).isSome := by
  unfold distCodeRow
  rw [List.getElem?_eq_getElem h]
  rfl

theorem llRow_isSome {s : Nat} (h : s < 288) : (llRow s).isSome := by
  unfold llRow
  split_ifs
  · rfl
  · rfl
  · exact lenCodeRow_isSome (by omega)
  · rfl
  · omega

theorem distRow_isSome {s : Nat} (h : s < 32) : (distRow s).isSome := by
  unfold distRow
  split_ifs
  · exact distCodeRow_isSome ‹_›
  · rfl

theorem lenExtraRow_isSome {n : Nat} (h : n < 29) (e : Nat) : (lenExtraRow n e).isSome := by
  interval_cases n <;> rfl

theorem distExtraRow_isSome {n : Nat} (h : n < 30) (e : Nat) : (distExtraRow n e).isSome := by
  interval_cases n <;> rfl

theorem readField_eq {n : Nat} {bits : List Bool} (h : bits.length = n) :
    readField n bits = .ok (BitVec.ofNat n (bitsVal (bits.take n)), bits.drop n) := by
  rw [readField, if_neg (by omega)]

theorem fieldTo_isOk {n : Nat} (row : BitVec n → Instr) {bits : List Bool} (h : bits.length = n) :
    ∃ i left, fieldTo n row bits = .ok (i, left) := by
  rw [fieldTo, readField_eq h]
  exact ⟨_, _, rfl⟩

theorem extraTo_isOk {tab : List (Nat × Nat)} {row : Nat → Nat → Option Instr} {n : Nat} (hn : n < tab.length)
    (hrow : ∀ e, (row n e).isSome) {bits : List Bool} (h : bits.length = (tab.getD n (0, 0)).2) :
    ∃ i left, extraTo tab row n bits = .ok (i, left) := by
  rw [List.getD_eq_getElem _ _ hn] at h
  unfold extraTo
  rw [List.getElem?_eq_getElem hn]
  dsimp only
  rw [readField_eq h]
  dsimp only
  obtain ⟨i, hi⟩ := Option.isSome_iff_exists.1 (hrow _)
  rw [hi]
  exact ⟨_, _, rfl⟩

theorem Ctx.need_le_one_of_code (t : Table) (h : Hc) : (if emptyStop t h then 0 else 1) ≤ 1 := by
  split <;> decide

/-- The table of a context's code; any table where the context reads no code. -/
def Ctx.table (c : Ctx) : Table :=
  match c with
  | .clSym t _ | .llSym t _ | .dSym t _ => t
  | _ => Table.blank

/-- A sound context's bits decode, or leave an unfinished code inside its table, or are INVALID_CODE (R58, R125). -/
theorem Ctx.Sound.answers {c : Ctx} (hc : Ctx.Sound c) {bits : List Bool} (hb : bits.length = c.need) :
    Answers (Ctx.table c) (decode c bits) := by
  cases c with
  | clSym t h =>
    exact .symTo hc.1 (by decide) hc.2 (fun _ => clRow_isSome) (hb.trans_le (need_le_one_of_code t h))
  | llSym t h =>
    exact .symTo hc.1 (by decide) hc.2 (fun _ => llRow_isSome) (hb.trans_le (need_le_one_of_code t h))
  | dSym t h =>
    exact .symTo hc.1 (by decide) hc.2 (fun _ => distRow_isSome) (hb.trans_le (need_le_one_of_code t h))
  | lenExtra sym =>
    obtain ⟨lo, hi⟩ := hc
    have hidx : lenIndex sym < 29 := by
      rw [lenIndex, if_neg (by omega)]
      omega
    exact .inl (extraTo_isOk hidx (lenExtraRow_isSome hidx) hb)
  | distExtra sym => exact .inl (extraTo_isOk (hn := hc) (distExtraRow_isSome hc) hb)
  | clBuild | dynBuild | litEmit | copy => exact .inl ⟨_, _, rfl⟩
  | _ => exact .inl (fieldTo_isOk _ hb)

/-- The invariant makes INF's context defined and sound (R58; log 15). -/
theorem State.StreamInv.ctx_sound {s : State} (hs : s.StreamInv) (hr : s.top = .running) :
    ∃ c, s.ctx = some c ∧ Ctx.Sound c := by
  cases hp : s.phase with
  | dynLens =>
    rcases hs.clSym hr with h | h | h | h
    · exact ⟨.clSym s.tabs.cl s.hc, by simp [State.ctx, hp, h], (hs.cl hr hp).1, hs.clHc hr hp h⟩
    · exact ⟨.rep16, by simp [State.ctx, hp, h], trivial⟩
    · exact ⟨.zero17, by simp [State.ctx, hp, h], trivial⟩
    · exact ⟨.zero18, by simp [State.ctx, hp, h], trivial⟩
  | sym => exact ⟨.llSym s.tabs.ll s.hc, by simp [State.ctx, hp], (hs.ll hr (.inl hp)).1, hs.llHc hr hp⟩
  | dist =>
    exact ⟨.dSym s.tabs.d s.hc, by simp [State.ctx, hp], (hs.ll hr (by simp [hp])).2.1, hs.dHc hr hp⟩
  | lextra => exact ⟨.lenExtra s.copy.lSym, by simp [State.ctx, hp], hs.lSym hr hp⟩
  | dextra => exact ⟨.distExtra s.copy.dSym, by simp [State.ctx, hp], hs.dSym hr hp⟩
  | zhdr | storedHdr | dynHdr | dynCl =>
    simp only [State.ctx, hp, Option.some.injEq, exists_eq_left']
    split_ifs <;> trivial
  | _ =>
    simp only [State.ctx, hp, Option.some.injEq, exists_eq_left']
    trivial

/-! ## No fault -/

theorem State.inf_answers (s : State) (g : State → State) : ∃ t, s.inf (fun u => .next (g u)) = .next t := by
  by_cases hr : s.top = .running
  · exact ⟨_, State.inf_running _ hr⟩
  · exact ⟨_, State.inf_stopped _ hr⟩

theorem State.infEmit_answers {s : State} {k : State → Out} (hk : ∃ t, k s.unhold = .next t) :
    ∃ t, s.infEmit k = .next t := by
  by_cases hr : s.top = .running
  · by_cases hc : s.canEmit
    · rwa [State.infEmit_space k hr hc]
    · exact ⟨_, State.infEmit_full k hr hc⟩
  · exact ⟨_, State.infEmit_stopped k hr⟩

/-- INF's rows that emit nothing answer with a next state, from every state. -/
theorem InfMeaning.answers {m : State → Out} (hm : InfMeaning m) (s : State) : ∃ t, m s = .next t := by
  cases hm with
  | storedHdr f | dynHdr f | dynClen f | clRep16 f | clZero17 f | clZero18 f | length sym base f | distance sym base f =>
    cases f <;> exact s.inf_answers _
  | litCode b =>
    rw [execLit]
    exact s.inf_answers _
  | _ => exact s.inf_answers _

theorem HostRow.answers {i : Instr} (hi : HostRow i) (s : State) : ∃ t, exec i s = .next t := by
  cases hi with
  | eoi => exact ⟨_, execEoi_eq s⟩
  | push b =>
    rw [exec_push, execPush]
    split <;> exact ⟨_, rfl⟩
  | pop =>
    rw [exec_pop, execPop]
    split <;> exact ⟨_, rfl⟩
  | _ => exact ⟨_, rfl⟩

/-- A copy whose distance is in the history reads a cell that has a value (R68). -/
theorem winRead_answers {s : State} (hw : s.WindowInv) {d : Nat} (h1 : 1 ≤ d) (h2 : d ≤ s.out.hist.toNat) :
    ∃ b, winRead s.out d = .ok b := by
  obtain ⟨b, hb⟩ := Option.isSome_iff_exists.1 (hw.cells d h1 h2)
  exact ⟨b, winRead_eq h1 h2 hb⟩

/-- A row decoded under the invariant answers with a next state: only MATCH can fault, and it copies from the history. -/
theorem Reads.answers {c : Ctx} {m : State → Out} (hm : Reads c m) {s : State} (hs : s.Inv) (hr : s.top = .running)
    (hat : Ctx.At c s) : ∃ t, m s = .next t := by
  cases hm with
  | storedByte b => exact State.infEmit_answers ⟨_, rfl⟩
  | litCode t h b =>
    rw [execLit]
    exact s.inf_answers _
  | litEmit =>
    rw [execLit]
    exact State.infEmit_answers ⟨_, rfl⟩
  | copy len dist =>
    obtain ⟨hp, rfl, rfl⟩ := hat
    obtain ⟨_, _, h1, h2⟩ := hs.stream.copy hr hp
    obtain ⟨b, hb⟩ := winRead_answers hs.window h1 h2
    refine State.infEmit_answers ?_
    rw [State.unhold_out, hb]
    exact ⟨_, rfl⟩
  | _ => exact s.inf_answers _

theorem State.Inv.infStep_answers {s : State} (hs : s.Inv) : ∃ t, infStep s = .next t := by
  by_cases hr : s.top = .running
  · obtain ⟨c, hc, hsound⟩ := hs.stream.ctx_sound hr
    by_cases hn : s.inp.cnt.toNat < c.need
    · exact ⟨_, infStep_fill hr hc hn⟩
    · rw [infStep_decode hr hc (Nat.not_lt.1 hn)]
      rcases hsound.answers (natBits_length c.need s.inp.buf.toNat) with ⟨i, left, hd⟩ | ⟨h, _, hd⟩ | ⟨h, hd⟩
      · rw [decodeAction_row hd]
        exact (Reads.of_decode hd).answers hs hr (State.ctx_at hc)
      · exact ⟨_, decodeAction_more hd⟩
      · exact ⟨_, decodeAction_invalid hd⟩
  · exact ⟨s, infStep_stopped hr⟩

theorem runAll_answers {is : List Instr} (h : ∀ i ∈ is, HostRow i) (s : State) : ∃ t, runAll is s = .next t := by
  induction is generalizing s with
  | nil => exact ⟨s, rfl⟩
  | cons i is ih =>
    obtain ⟨u, hu⟩ := (h i List.mem_cons_self).answers s
    obtain ⟨t, ht⟩ := ih (fun j hj => h j (List.mem_cons_of_mem i hj)) u
    exact ⟨t, by rw [runAll, hu]; exact ht⟩

/-- Settles O47: INF's turn answers with a next state, and so do a host access's rows; an access outside the interface is
refused, which is no fault. -/
theorem noFaultUnderInv : Obligations.NoFaultUnderInv := by
  intro s f hs h
  match ha : s.agenda with
  | [] =>
    obtain ⟨t, ht⟩ := hs.infStep_answers
    rw [step_inf_nil ha, ht] at h
    cases h
  | .inf :: rest =>
    obtain ⟨t, ht⟩ := State.Inv.infStep_answers (s := { s with agenda := rest })
      ⟨{ hs.reader with }, { hs.window with }, { hs.stream with }⟩
    rw [step_inf_cons ha, ht] at h
    cases h
  | .reset :: rest =>
    rw [step_reset ha] at h
    cases h
  | .host a :: rest =>
    match hd : decodeHost s.cfg.blockBase a with
    | .ok is =>
      obtain ⟨t, ht⟩ := runAll_answers (hostRow_of_decodeHost hd) { s with agenda := rest }
      rw [step_host_rows ha hd, ht] at h
      cases h
    | .error r =>
      rw [step_host ha] at h
      simp [hostAction, hd, Action.out] at h

end Sys2Proof.Machine
end

section
/-! PROOF. Every step keeps the stream's registers where their phase wants them (R48, R51, R52, R58, R126), and the window
as OUT_COUNT says (R53). -/

namespace Sys2Proof.Machine

/-! ## The stream invariant, phase by phase -/

/-- The sizes of the code-length arrays (R49). -/
structure State.Arrays (s : State) : Prop where
  lens : s.blk.lens.length = 320
  clLens : s.blk.clLens.length = 19

/-- NLEN and NDIST as DYN_COUNTS lets them pass (R128). -/
def State.CountsOk (s : State) : Prop := s.blk.nlen.toNat ≤ 286 ∧ s.blk.ndist.toNat ≤ 30

/-- The two tables of a block whose symbols are read (R50, R124, R126). -/
def State.TabsOk (s : State) : Prop :=
  s.tabs.ll.formed 288 ∧ s.tabs.d.formed 32 ∧ s.tabs.ll.left = some 0 ∧ s.tabs.d.left ≠ none ∧
    (s.tabs.d.left = some 0 ∨ s.ctl.allow = true ∧ (s.tabs.d.empty = true ∨ s.tabs.d.single = true))

/-- The phases in which no code is in progress and no register but the HC ones matters. -/
def Phase.plain (p : Phase) : Bool :=
  match p with
  | .zhdr | .bhdr | .storedHdr | .storedCopy | .dynHdr | .trailer => true
  | _ => false

/-- What each phase needs of the registers: the clauses of `StreamInv` for a stream in that phase. -/
inductive State.PhaseOk (s : State) : Prop where
  | plain (hp : s.phase.plain = true) (hc : s.hc = Hc.zero)
  | dynCl (hp : s.phase = .dynCl) (hc : s.hc = Hc.zero) (hn : s.CountsOk)
  | dynBuild (hp : s.phase = .dynBuild) (hc : s.hc = Hc.zero) (hn : s.CountsOk)
  | dynLens (hp : s.phase = .dynLens) (hn : s.CountsOk) (ht : s.tabs.cl.formed 19 ∧ s.tabs.cl.left = some 0)
      (hcode : s.blk.clSym = 0 → s.hc.within s.tabs.cl) (hwait : s.blk.clSym ≠ 0 → s.hc = Hc.zero)
  | sym (hp : s.phase = .sym) (ht : s.TabsOk) (hc : s.hc.within s.tabs.ll)
  | lit (hp : s.phase = .lit) (ht : s.TabsOk) (hc : s.hc = Hc.zero)
  | lextra (hp : s.phase = .lextra) (ht : s.TabsOk) (hc : s.hc = Hc.zero)
      (hl : 257 ≤ s.copy.lSym.toNat ∧ s.copy.lSym.toNat ≤ 285)
  | dist (hp : s.phase = .dist) (ht : s.TabsOk) (hc : s.hc.within s.tabs.d)
      (hl : 3 ≤ s.copy.pendLen.toNat ∧ s.copy.pendLen.toNat ≤ 258)
  | dextra (hp : s.phase = .dextra) (ht : s.TabsOk) (hc : s.hc = Hc.zero)
      (hl : 3 ≤ s.copy.pendLen.toNat ∧ s.copy.pendLen.toNat ≤ 258) (hd : s.copy.dSym.toNat < 30)
  | copy (hp : s.phase = .copy) (ht : s.TabsOk) (hc : s.hc = Hc.zero)
      (hl : 1 ≤ s.copy.len.toNat ∧ s.copy.len.toNat ≤ 258 ∧ 1 ≤ s.copy.dist.toNat ∧ s.copy.dist.toNat ≤ s.out.hist.toNat)

theorem State.StreamInv.of_stopped {s : State} (ha : s.Arrays) (hr : s.top ≠ .running) : s.StreamInv := by
  obtain ⟨hl, hcl⟩ := ha
  constructor
  case lens => exact hl
  case clLens => exact hcl
  all_goals exact fun h => absurd h hr

theorem State.StreamInv.of_phase {s : State} (ha : s.Arrays)
    (hsym : s.blk.clSym = 0 ∨ s.blk.clSym = 16 ∨ s.blk.clSym = 17 ∨ s.blk.clSym = 18) (hp : s.PhaseOk) :
    s.StreamInv := by
  obtain ⟨hl, hcl⟩ := ha
  cases hp with
  | plain hp hc =>
    cases hph : s.phase <;> simp [hph, Phase.plain] at hp <;> constructor <;> simp_all
  | _ => constructor <;> simp_all [State.TabsOk, State.CountsOk]


/-- No code is in progress outside the three phases that read one (R51, R125). -/
theorem State.StreamInv.hc_zero {s : State} (hs : s.StreamInv) (hr : s.top = .running) {p : Phase} (hp : s.phase = p)
    (h : p ≠ .dynLens ∧ p ≠ .sym ∧ p ≠ .dist := by decide) : s.hc = Hc.zero := by
  subst hp
  exact hs.idle hr h.1 h.2.1 h.2.2

theorem State.StreamInv.arrays {s : State} (hs : s.StreamInv) : s.Arrays := ⟨hs.lens, hs.clLens⟩

theorem State.StreamInv.fail {s : State} (ha : s.Arrays) (x : ErrCause) : (s.fail x).StreamInv :=
  .of_stopped { ha with } nofun

theorem Hc.zero_within (t : Table) : Hc.zero.within t := ⟨by decide, rfl, by decide, by decide⟩

theorem fixedLL_formed : fixedLL.formed 288 := by
  have h : fixedLL = buildTable fixedLLLens := by decide +kernel
  rw [h]
  exact buildTable_formed (by decide +kernel) (by decide)

theorem fixedD_formed : fixedD.formed 32 := by
  have h : fixedD = buildTable fixedDLens := by decide +kernel
  rw [h]
  exact buildTable_formed (by decide +kernel) (by decide)

theorem fixedLL_left : fixedLL.left = some 0 := by decide +kernel

theorem fixedD_left : fixedD.left = some 0 := by decide +kernel

/-! ## The shared operations -/

/-- A state between codes: its arrays, CL_SYM and the HC registers are what every phase that starts afresh wants. -/
structure State.Fresh (s : State) : Prop where
  arrays : s.Arrays
  clSym : s.blk.clSym = 0 ∨ s.blk.clSym = 16 ∨ s.blk.clSym = 17 ∨ s.blk.clSym = 18
  hc : s.hc = Hc.zero

theorem State.Fresh.within {s : State} (hs : s.Fresh) (t : Table) : s.hc.within t := hs.hc ▸ Hc.zero_within t

theorem State.Fresh.streamInv {s : State} (hs : s.Fresh) (hp : s.phase.plain = true) : s.StreamInv :=
  .of_phase hs.arrays hs.clSym (.plain hp hs.hc)

theorem State.Fresh.blockEnd {s : State} (hs : s.Fresh) : s.blockEnd.StreamInv := by
  rcases s.blockEnd_cases with ⟨_, e⟩ | ⟨_, e⟩ <;> rw [e]
  · exact State.Fresh.streamInv { hs with arrays := { hs.arrays with } } rfl
  · exact State.Fresh.streamInv { hs with arrays := { hs.arrays with } } rfl

theorem State.Fresh.zlibChecks {s : State} (hs : s.Fresh) : (zlibChecks s fun u => u.goto .bhdr).StreamInv := by
  unfold Machine.zlibChecks
  split_ifs
  · exact .fail hs.arrays _
  · exact .fail hs.arrays _
  · exact .fail hs.arrays _
  · exact .fail hs.arrays _
  · exact State.Fresh.streamInv { hs with arrays := { hs.arrays with } } rfl

theorem State.Fresh.dynCounts {s : State} (hs : s.Fresh) : (dynCounts s).StreamInv := by
  unfold Machine.dynCounts
  split
  · exact .fail hs.arrays _
  · refine .of_phase ⟨hs.arrays.lens, List.length_replicate⟩ hs.clSym (.dynCl rfl hs.hc ?_)
    unfold State.CountsOk
    dsimp
    omega

/-- CL_T as the build leaves it, where it passes (R122, R123, R129). -/
theorem State.Fresh.buildCL {s : State} (hs : s.Fresh) (hn : s.CountsOk) :
    (s.buildCL fun u => State.goto { u with blk := { u.blk with lenIdx := 0 } } .dynLens).StreamInv := by
  unfold State.buildCL
  extract_lets t
  have hf : t.formed 19 := buildTable_formed (by rw [List.length_map, hs.arrays.clLens]) (by decide)
  rcases State.validate_cases { s with tabs := { s.tabs with cl := t } } t .clOversub .clIncomplete
    (fun u => State.goto { u with blk := { u.blk with lenIdx := 0 } } .dynLens) with
    ⟨_, e⟩ | ⟨hleft, e⟩ | ⟨_, _, e⟩ <;> rw [e]
  · exact .fail (by exact { hs.arrays with }) _
  · exact .of_phase { hs.arrays with } hs.clSym
      (.dynLens rfl hn ⟨hf, hleft⟩ (fun _ => hs.within t) fun _ => hs.hc)
  · exact .fail (by exact { hs.arrays with }) _

/-- D_T as the build leaves it, where it passes (R122, R123, R124, R135). -/
theorem State.Fresh.buildD {s : State} (hs : s.Fresh) (hn : s.CountsOk) (hll : s.tabs.ll.formed 288)
    (hleft : s.tabs.ll.left = some 0) : (s.buildD fun u => u.goto .sym).StreamInv := by
  have hsize : ((s.blk.lens.drop s.blk.nlen.toNat).take s.blk.ndist.toNat).length ≤ 32 :=
    Nat.le_trans (List.length_take_le _ _) (Nat.le_trans hn.2 (by decide))
  have hf := buildTable_formed hsize (by decide)
  rcases s.buildD_cases fun u => u.goto .sym with ⟨_, e⟩ | ⟨h0, e⟩ | ⟨n, h1, ⟨_, e⟩ | ⟨t', ht', e⟩⟩ <;> rw [e]
  · exact .fail (by exact { hs.arrays with }) _
  · exact .of_phase { hs.arrays with } hs.clSym
      (.sym rfl ⟨hll, hf, hleft, by simp [h0], .inl h0⟩ (hs.within _))
  · exact .fail (by exact { hs.arrays with }) _
  · refine .of_phase { hs.arrays with } hs.clSym (.sym rfl ?_ (hs.within _))
    obtain ⟨hallow, ⟨_, rfl⟩ | ⟨_, _, rfl⟩⟩ := distException_cases ht'
    · exact ⟨hll, { hf with }, hleft, h1 ▸ Option.some_ne_none _, .inr ⟨hallow, .inl rfl⟩⟩
    · exact ⟨hll, { hf with }, hleft, h1 ▸ Option.some_ne_none _, .inr ⟨hallow, .inr rfl⟩⟩

theorem State.Fresh.dynBuild {s : State} (hs : s.Fresh) (hn : s.CountsOk) :
    (s.buildLL fun u => u.buildD fun v => v.goto .sym).StreamInv := by
  unfold State.buildLL
  extract_lets t
  have hf : t.formed 288 :=
    buildTable_formed (Nat.le_trans (List.length_take_le _ _) (Nat.le_trans hn.1 (by decide))) (by decide)
  rcases State.validate_cases { s with tabs := { s.tabs with ll := t } } t .llOversub .llIncomplete
    (fun u => u.buildD fun v => v.goto .sym) with ⟨_, e⟩ | ⟨hleft, e⟩ | ⟨_, _, e⟩ <;> rw [e]
  · exact .fail (by exact { hs.arrays with }) _
  · exact State.Fresh.buildD { hs with arrays := { hs.arrays with } } hn hf hleft
  · exact .fail (by exact { hs.arrays with }) _

/-- Code lengths written in DYN_LENS, outside a wait for a repeat's extra bits, keep the phase or lead to DYN_BUILD. -/
theorem State.Fresh.putLens {s : State} (hs : s.Fresh) (hp : s.phase = .dynLens) (hn : s.CountsOk)
    (ht : s.tabs.cl.formed 19 ∧ s.tabs.cl.left = some 0) (n : Nat) (v : BitVec 4) : (s.putLens n v).StreamInv := by
  have ha : (setLens s.blk.lens s.blk.lenIdx.toNat n v).length = 320 := by rw [setLens_length, hs.arrays.lens]
  unfold State.putLens
  extract_lets
  split
  · exact .of_phase ⟨ha, hs.arrays.clLens⟩ hs.clSym (.dynBuild rfl hs.hc hn)
  · exact .of_phase ⟨ha, hs.arrays.clLens⟩ hs.clSym
      (.dynLens hp hn ht (fun _ => hs.within _) fun _ => hs.hc)

theorem State.Fresh.repeatLens {s : State} (hs : s.Fresh) (hp : s.phase = .dynLens) (hn : s.CountsOk)
    (ht : s.tabs.cl.formed 19 ∧ s.tabs.cl.left = some 0) (n : Nat) (v : BitVec 4) : (s.repeatLens n v).StreamInv := by
  unfold State.repeatLens
  split
  · exact .fail hs.arrays _
  · exact State.Fresh.putLens (s := { s with blk := { s.blk with clSym := 0 } }) ⟨{ hs.arrays with }, .inl rfl, hs.hc⟩
      hp hn ht n v

theorem State.Fresh.startCopy {s : State} (hs : s.Fresh) (ht : s.TabsOk)
    (hl : 3 ≤ s.copy.pendLen.toNat ∧ s.copy.pendLen.toNat ≤ 258) {d : Nat} (hd : 1 ≤ d) : (startCopy s d).StreamInv := by
  unfold Machine.startCopy
  split
  · exact .fail hs.arrays _
  · refine .of_phase { hs.arrays with } hs.clSym (.copy rfl ht hs.hc ?_)
    have hlt := s.out.hist.isLt
    have hdist : (BitVec.ofNat 16 d).toNat = d := by
      rw [BitVec.toNat_ofNat]
      omega
    refine ⟨Nat.le_trans (by decide) hl.1, hl.2, ?_, ?_⟩
    · exact hd.trans_eq hdist.symm
    · exact hdist.trans_le (Nat.not_lt.1 ‹_›)

end Sys2Proof.Machine
end

section
/-! PROOF. INF's rows keep the stream invariant; with the reader and the window, every step keeps the whole invariant. -/

namespace Sys2Proof.Machine

theorem State.inf_next {s t : State} {g : State → State} (hr : s.top = .running)
    (h : s.inf (fun u => .next (g u)) = .next t) : t = g s.unhold := by
  rw [State.inf_running _ hr] at h
  exact (Host.Outcome.next.inj h).symm

section
variable {s : State} (hs : s.StreamInv) (hr : s.top = .running)
include hs hr

theorem State.StreamInv.counts_dynLens (hp : s.phase = .dynLens) : s.CountsOk := hs.counts hr (.inr (.inl hp))

/-- The state once a code has ended: nothing is in progress (R125). -/
theorem State.StreamInv.endCode : s.endCode.Fresh := ⟨{ hs.arrays with }, hs.clSym hr, rfl⟩

/-- The state of a phase that reads no code. -/
theorem State.StreamInv.fresh (hc : s.hc = Hc.zero) : s.Fresh := ⟨hs.arrays, hs.clSym hr, hc⟩

/-- A repeat symbol leaves no code in progress and CL_SYM set (R130). -/
theorem State.StreamInv.awaitRepeat (hp : s.phase = .dynLens) {x : BitVec 5} (hx : x = 16 ∨ x = 17 ∨ x = 18) :
    (s.awaitRepeat x).StreamInv := by
  have hne : x ≠ 0 := by rcases hx with rfl | rfl | rfl <;> decide
  exact .of_phase { hs.arrays with } (.inr hx)
    (.dynLens hp (hs.counts_dynLens hr hp) (hs.cl hr hp) (fun h0 => absurd h0 hne) fun _ => rfl)

end

theorem State.Fresh.congr {s t : State} (hs : s.Fresh) (hlens : t.blk.lens = s.blk.lens)
    (hcl : t.blk.clLens.length = s.blk.clLens.length) (hsym : t.blk.clSym = s.blk.clSym) (hc : t.hc = s.hc) : t.Fresh :=
  ⟨⟨hlens ▸ hs.arrays.lens, hcl ▸ hs.arrays.clLens⟩, hsym ▸ hs.clSym, hc ▸ hs.hc⟩

/-- What every outcome of an emit has, the emit has (R136). -/
theorem State.emit_keeps {P : State → Prop} {s : State} {b : Byte} {k : State → State} (hfail : ∀ x, P (s.fail x))
    (hk : P (k { s with out := s.out.emitted b })) : P (s.emit b k) := by
  rcases s.emit_cases b k with ⟨_, e⟩ | ⟨_, _, e⟩ | ⟨_, e⟩ <;> rw [e]
  · exact hfail _
  · exact hfail _
  · exact hk

/-- An emit does not shorten the history (R67). -/
theorem hist_le_emitted {s : State} (hw : s.WindowInv) (b : Byte) :
    s.out.hist.toNat ≤ (s.out.emitted b).hist.toNat := by
  have hhist := hw.hist
  have he : (s.out.emitted b).hist.toNat = min (s.out.hist.toNat + 1) 32768 % 2 ^ 16 := BitVec.toNat_ofNat _ _
  omega

theorem Reads.stream {c : Ctx} {m : State → Out} (hm : Reads c m) {s t : State} (hat : Ctx.At c s)
    (hr : s.top = .running) (hs : s.StreamInv) (hw : s.WindowInv) (h : m s = .next t) : t.StreamInv := by
  have ha := hs.arrays
  cases hm with
  | cmf v =>
    obtain rfl := State.inf_next hr h
    have hf := hs.fresh hr (hs.hc_zero hr hat)
    exact State.Fresh.streamInv (hf.congr rfl rfl rfl rfl) (congrArg Phase.plain hat)
  | flg v =>
    obtain rfl := State.inf_next hr h
    have hf := hs.fresh hr (hs.hc_zero hr hat)
    exact State.Fresh.zlibChecks (hf.congr rfl rfl rfl rfl)
  | blockStored f | blockDynamic f =>
    obtain rfl := State.inf_next hr h
    have hf := hs.fresh hr (hs.hc_zero hr hat)
    exact State.Fresh.streamInv (hf.congr rfl rfl rfl rfl) rfl
  | blockFixed f =>
    obtain rfl := State.inf_next hr h
    have hc := hs.hc_zero hr hat
    exact .of_phase { ha with } (hs.clSym hr) (.sym rfl
      ⟨fixedLL_formed, fixedD_formed, fixedLL_left, fixedD_left ▸ Option.some_ne_none _, .inl fixedD_left⟩
      ((hs.fresh hr hc).within _))
  | blockReserved f =>
    obtain rfl := State.inf_next hr h
    exact .fail (by exact { ha with }) _
  | storedLen v =>
    obtain rfl := State.inf_next hr h
    have hf := hs.fresh hr (hs.hc_zero hr hat)
    exact State.Fresh.streamInv (hf.congr rfl rfl rfl rfl) (congrArg Phase.plain hat)
  | storedNlen v =>
    obtain rfl := State.inf_next hr h
    have hf := hs.fresh hr (hs.hc_zero hr hat)
    split_ifs
    · exact .fail (by exact { ha with }) _
    · exact State.Fresh.blockEnd (hf.congr rfl rfl rfl rfl)
    · exact State.Fresh.streamInv (hf.congr rfl rfl rfl rfl) rfl
  | hlit v | hdist v =>
    obtain rfl := State.inf_next hr h
    have hf := hs.fresh hr (hs.hc_zero hr hat)
    exact State.Fresh.streamInv (hf.congr rfl rfl rfl rfl) (congrArg Phase.plain hat)
  | hclen v =>
    obtain rfl := State.inf_next hr h
    have hf := hs.fresh hr (hs.hc_zero hr hat)
    exact State.Fresh.dynCounts (hf.congr rfl rfl rfl rfl)
  | clen v =>
    obtain rfl := State.inf_next hr h
    exact .of_phase ⟨ha.lens, by rw [← ha.clLens]; exact List.length_set⟩ (hs.clSym hr)
      (.dynCl hat (hs.hc_zero hr hat) (hs.counts hr (.inl hat)))
  | clBuild =>
    obtain rfl := State.inf_next hr h
    have hf := hs.fresh hr (hs.hc_zero hr hat)
    exact State.Fresh.buildCL (s := s.unhold) (hf.congr rfl rfl rfl rfl) (hs.counts hr (.inl hat))
  | clLen _ _ l =>
    obtain ⟨hp, _⟩ := hat
    obtain rfl := State.inf_next hr h
    exact State.Fresh.putLens (s := s.unhold.endCode) ((hs.endCode hr).congr rfl rfl rfl rfl) hp
      (hs.counts_dynLens hr hp) (hs.cl hr hp) 1 l
  | clRep16 =>
    obtain ⟨hp, _⟩ := hat
    obtain rfl := State.inf_next hr h
    split
    · exact .fail (by exact { ha with }) _
    · exact State.StreamInv.awaitRepeat (s := s.unhold) { hs with } hr hp (.inl rfl)
  | clZero17 =>
    obtain ⟨hp, _⟩ := hat
    obtain rfl := State.inf_next hr h
    exact State.StreamInv.awaitRepeat (s := s.unhold) { hs with } hr hp (.inr (.inl rfl))
  | clZero18 =>
    obtain ⟨hp, _⟩ := hat
    obtain rfl := State.inf_next hr h
    exact State.StreamInv.awaitRepeat (s := s.unhold) { hs with } hr hp (.inr (.inr rfl))
  | rep16 e | zero17 e | zero18 e =>
    obtain ⟨hp, hne⟩ := hat
    obtain rfl := State.inf_next hr h
    have hf := hs.fresh hr (hs.waiting hr hp hne)
    exact State.Fresh.repeatLens (s := s.unhold.dropBits _) (hf.congr rfl rfl rfl rfl) hp (hs.counts_dynLens hr hp)
      (hs.cl hr hp) _ _
  | dynBuild =>
    obtain rfl := State.inf_next hr h
    have hf := hs.fresh hr (hs.hc_zero hr hat)
    split
    · exact .fail (by exact { ha with }) _
    · exact State.Fresh.dynBuild (s := s.unhold) (hf.congr rfl rfl rfl rfl) (hs.counts hr (.inr (.inr hat)))
  | litCode _ _ b =>
    unfold execLit at h
    obtain ⟨hp, _⟩ := hat
    obtain rfl := State.inf_next hr h
    exact .of_phase { ha with } (hs.clSym hr) (.lit rfl (hs.ll hr (by simp [hp])) rfl)
  | eob =>
    obtain rfl := State.inf_next hr h
    exact State.Fresh.blockEnd ((hs.endCode hr).congr rfl rfl rfl rfl)
  | lenCode _ _ sym lo hi =>
    obtain ⟨hp, _⟩ := hat
    obtain rfl := State.inf_next hr h
    exact .of_phase { ha with } (hs.clSym hr) (.lextra rfl (hs.ll hr (by simp [hp])) rfl ⟨lo, hi⟩)
  | llReserved | dReserved =>
    obtain rfl := State.inf_next hr h
    exact .fail (by exact { ha with }) _
  | lenExtra x base e need lo hi =>
    obtain ⟨hp, _⟩ := hat
    obtain rfl := State.inf_next hr h
    have hf := hs.fresh hr (hs.hc_zero hr hp)
    refine .of_phase { ha with } (hs.clSym hr) (.dist rfl (hs.ll hr (by simp [hp])) (hf.within _) ?_)
    have he := e.isLt
    have hl : (BitVec.ofNat 9 (base + e.toNat)).toNat = base + e.toNat := by
      rw [BitVec.toNat_ofNat]
      omega
    exact ⟨by rw [State.goto_copy, hl]; omega, by rw [State.goto_copy, hl]; omega⟩
  | distCode _ _ sym hi =>
    obtain ⟨hp, _⟩ := hat
    obtain rfl := State.inf_next hr h
    exact .of_phase { ha with } (hs.clSym hr)
      (.dextra rfl (hs.ll hr (by simp [hp])) rfl (hs.pend hr (.inl hp)) hi)
  | distExtra x base e need lo hi =>
    obtain ⟨hp, _⟩ := hat
    obtain rfl := State.inf_next hr h
    have hf := hs.fresh hr (hs.hc_zero hr hp)
    exact State.Fresh.startCopy (s := s.unhold.dropBits _) (hf.congr rfl rfl rfl rfl) (hs.ll hr (by simp [hp]))
      (hs.pend hr (.inr hp)) (Nat.le_trans lo (Nat.le_add_right _ _))
  | trailer b =>
    have hf := hs.fresh hr (hs.hc_zero hr hat)
    unfold execTrailer at h
    rw [State.inf_running _ hr] at h
    extract_lets s1 at h
    cases h
    split
    · unfold trailerCheck
      split
      · exact .fail (by exact { ha with }) _
      · exact .of_stopped { ha with } nofun
    · exact State.Fresh.streamInv (hf.congr rfl rfl rfl rfl) (congrArg Phase.plain hat)
  | storedByte b =>
    rcases State.infEmit_cases h with ⟨_, _, h⟩ | ⟨_, _, rfl⟩ | ⟨hn, _⟩
    · cases h
      have hf := hs.fresh hr (hs.hc_zero hr hat)
      refine State.emit_keeps (fun x => .fail (by exact { ha with }) x) ?_
      extract_lets
      split
      · exact State.Fresh.blockEnd (hf.congr rfl rfl rfl rfl)
      · exact State.Fresh.streamInv (hf.congr rfl rfl rfl rfl) (congrArg Phase.plain hat)
    · exact { hs with }
    · exact absurd hr hn
  | litEmit =>
    unfold execLit at h
    have hp : s.phase = .lit := hat
    rcases State.infEmit_cases h with ⟨_, _, h⟩ | ⟨_, _, rfl⟩ | ⟨hn, _⟩
    · cases h
      have hf := hs.fresh hr (hs.hc_zero hr hp)
      refine State.emit_keeps (fun x => .fail (by exact { ha with }) x) ?_
      exact .of_phase { ha with } (hs.clSym hr) (.sym rfl (hs.ll hr (by simp [hp])) (hf.within _))
    · exact { hs with }
    · exact absurd hr hn
  | copy len dist =>
    obtain ⟨hp, rfl, rfl⟩ := hat
    rcases State.infEmit_cases h with ⟨_, _, h⟩ | ⟨_, _, rfl⟩ | ⟨hn, _⟩
    · have hf := hs.fresh hr (hs.hc_zero hr hp)
      have ht := hs.ll hr (by simp [hp])
      obtain ⟨hl1, hl2, hd1, hd2⟩ := hs.copy hr hp
      split at h
      · cases h
      · rename_i b _
        cases h
        refine State.emit_keeps (fun x => .fail (by exact { ha with }) x) ?_
        dsimp only
        have hlen : (BitVec.ofNat 9 (s.copy.len.toNat - 1)).toNat = s.copy.len.toNat - 1 := by
          rw [BitVec.toNat_ofNat]
          omega
        split
        · exact .of_phase { ha with } (hs.clSym hr) (.sym rfl ht (hf.within _))
        · have hlo : 1 ≤ (BitVec.ofNat 9 (s.copy.len.toNat - 1)).toNat := by omega
          have hhi : (BitVec.ofNat 9 (s.copy.len.toNat - 1)).toNat ≤ 258 := by omega
          exact .of_phase { ha with } (hs.clSym hr)
            (.copy hp ht hf.hc ⟨hlo, hhi, hd1, Nat.le_trans hd2 (hist_le_emitted hw b)⟩)
    · exact { hs with }
    · exact absurd hr hn

/-! ## A code bit, a fill, INF's turn -/

/-- A code bit that ends no code keeps the decode inside its table (R125). -/
theorem State.StreamInv.codeMore {s : State} (hs : s.StreamInv) (hr : s.top = .running) {c : Ctx} (hc : s.ctx = some c)
    {hc' : Hc} (hd : decode c (s.peek c.need) = .error (.more hc')) : (s.codeMore hc').StreamInv := by
  have hw : hc'.within (Ctx.table c) := by
    obtain ⟨c', hc'', hsound⟩ := hs.ctx_sound hr
    obtain rfl := Option.some.inj (hc.symm.trans hc'')
    rcases hsound.answers (natBits_length c.need s.inp.buf.toNat) with ⟨i, left, e⟩ | ⟨h, hin, e⟩ | ⟨h, e⟩
    all_goals have he := hd.symm.trans e
    · cases he
    · cases he
      exact hin
    · cases he
  have hat := State.ctx_at hc
  rcases Ctx.code_of_more hd with ⟨t, h, rfl⟩ | ⟨t, h, rfl⟩ | ⟨t, h, rfl⟩
  · obtain ⟨hp, hz, rfl, rfl⟩ := hat
    exact .of_phase { hs.arrays with } (hs.clSym hr)
      (.dynLens hp (hs.counts_dynLens hr hp) (hs.cl hr hp) (fun _ => hw) fun hne => absurd hz hne)
  · obtain ⟨hp, rfl, rfl⟩ := hat
    exact .of_phase { hs.arrays with } (hs.clSym hr) (.sym hp (hs.ll hr (by simp [hp])) hw)
  · obtain ⟨hp, rfl, rfl⟩ := hat
    exact .of_phase { hs.arrays with } (hs.clSym hr)
      (.dist hp (hs.ll hr (by simp [hp])) hw (hs.pend hr (.inl hp)))

theorem State.StreamInv.fill {s : State} (hs : s.StreamInv) : s.fill.StreamInv := by
  rcases s.fill_cases with ⟨b, rest, _, _, e⟩ | ⟨_, _, e⟩ | ⟨_, _, e⟩ | ⟨_, _, e⟩ <;> rw [e]
  · exact { hs with }
  · exact .fail (by exact { hs.arrays with }) _
  · exact .fail (by exact { hs.arrays with }) _
  · exact { hs with }

theorem State.StreamInv.infStep {s t : State} (hs : s.StreamInv) (hw : s.WindowInv) (h : infStep s = .next t) :
    t.StreamInv := by
  rcases infStep_cases h with
    ⟨_, rfl⟩ | ⟨hr, c, hc, ⟨_, rfl⟩ | ⟨_, ⟨hc', hd, rfl⟩ | ⟨hc', _, rfl⟩ | ⟨i, left, hd, he⟩⟩⟩
  · exact hs
  · exact hs.fill
  · exact hs.codeMore hr hc hd
  · exact .fail (by exact { hs.arrays with }) _
  · exact (Reads.of_decode hd).stream (State.ctx_at hc) hr hs hw he

theorem State.StreamInv.host {s t : State} (hs : s.StreamInv) (h : HostEffect s t) : t.StreamInv := by
  cases h with
  | start => exact State.Fresh.streamInv ⟨{ hs.arrays with }, .inl rfl, rfl⟩ rfl
  | abort => exact .of_stopped { hs.arrays with } nofun
  | data h =>
    cases h with
    | fails x hr => exact .fail hs.arrays x
    | accepts b hf => exact { hs with }
    | aside w hf => exact { hs with }

/-! ## The window -/

/-- An emit keeps the window's form, and every cell a copy may reach has a value (R53, R58, R67). -/
theorem State.WindowInv.emitted {s t : State} (hs : s.WindowInv) {b : Byte} (hc : s.out.count ≠ 0xFFFFFFFF)
    (h : t.out = s.out.emitted b) : t.WindowInv := by
  have he := s.out.emitted_emits b hc
  have hhist := hs.hist
  have hwp := hs.wp
  have hnext : (s.out.emitted b).wp = s.out.wp + 1 := rfl
  refine ⟨?_, ?_, ?_, fun d h1 h2 => ?_⟩ <;> rw [h] at *
  · exact Memory.wf_write _ _ _ s.out.wp.isLt hs.form
  · rw [he.hist, he.count]
    omega
  · rw [he.wp, he.count]
    omega
  · rw [he.hist] at h2
    obtain ⟨e, rfl⟩ := Nat.exists_eq_add_of_le' h1
    rw [hnext]
    rcases Nat.eq_zero_or_pos e with rfl | he0
    · rw [winCell_succ_one, he.cell]
      rfl
    · have hlt : e < Config.wsize := by
        rw [Config.wsize]
        omega
      rw [winCell_succ _ _ hlt, he.others _ (winCell_ne_wp _ _ he0 hlt)]
      exact hs.cells e he0 (by omega)

theorem State.WindowInv.of_empty {s : State} (hform : Memory.wf s.out.win = true) (hcount : s.out.count = 0)
    (hhist : s.out.hist = 0) (hwp : s.out.wp = 0) : s.WindowInv where
  form := hform
  hist := by rw [hhist, hcount]; rfl
  wp := by rw [hwp, hcount]; rfl
  cells := fun d h1 h2 => by
    rw [hhist] at h2
    exact absurd h2 (Nat.not_le.2 h1)

theorem State.WindowInv.infStep {s t : State} (hs : s.WindowInv) (h : infStep s = .next t) : t.WindowInv := by
  rcases (infStep_emission h).out with e | ⟨_, hc, b, e⟩
  · exact ⟨e ▸ hs.form, e ▸ hs.hist, e ▸ hs.wp, e ▸ hs.cells⟩
  · exact hs.emitted hc e

theorem State.WindowInv.host {s t : State} (hs : s.WindowInv) (h : HostEffect s t) : t.WindowInv := by
  cases h with
  | start | abort => exact .of_empty hs.form rfl rfl rfl
  | data h =>
    cases h with
    | fails x hr => exact { hs with }
    | accepts b hf => exact { hs with }
    | aside w hf => exact { hs with }

/-! ## The whole invariant -/

/-- Every state that the reset input leaves meets the invariant (R58, R227). -/
theorem State.Inv.reset (cfg : Config) (agenda : List Turn) (rdata : Word) :
    State.Inv { State.resetWith cfg with agenda := agenda, rdata := rdata } where
  reader := .reset cfg agenda rdata
  window := .of_empty rfl rfl rfl rfl
  stream := .of_stopped ⟨List.length_replicate, List.length_replicate⟩ nofun

/-- Settles O45: reader, window and stream registers are each kept by INF's turn and by every host row, and reset sets
them up. -/
theorem stepKeepsInv : Obligations.StepKeepsInv := by
  refine fun s t hs h => step_keeps (fun s rest hs => ?_) (fun s t hs h => ?_) (fun s t hs h => ?_)
    (fun s rest => .reset s.cfg rest s.rdata) hs h
  · exact ⟨{ hs.reader with }, { hs.window with }, { hs.stream with }⟩
  · exact ⟨hs.reader.infStep h, hs.window.infStep h, hs.stream.infStep hs.window h⟩
  · exact ⟨hs.reader.host h, hs.window.host h, hs.stream.host h⟩

/-- Settles O46: the reset state is what the reset input leaves, with empty FIFOs, the sums of no byte and no error. -/
theorem resetMeetsInvariants : Obligations.ResetMeetsInvariants :=
  ⟨.reset Config.standard [] 0, ⟨Nat.zero_le _, Nat.zero_le _⟩, .of_empty rfl rfl, .of_clear nofun rfl⟩

end Sys2Proof.Machine
end

section
/-! PROOF. Rules about the whole machine: the holds, the transitions of STATE, the latches, the refused accesses and the
host's reads (R20, R22, R24, R43, R44, R74, R218, R231). -/

namespace Sys2Proof.Machine

/-! ## The holds -/

theorem outFull_iff (s : State) : s.outFull = true ↔ ¬ s.canEmit := by
  simp [State.outFull, State.canEmit]

theorem holdIn_iff (s : State) :
    s.holdIn = true ↔ s.top = .running ∧ ∃ c, s.ctx = some c ∧ s.inp.cnt.toNat < c.need ∧ s.inp.fifo = [] ∧
      s.eoiSeen = false := by
  unfold State.holdIn
  cases s.top <;> cases s.ctx <;> simp [and_assoc]

theorem holdOut_iff (s : State) :
    s.holdOut = true ↔ s.top = .running ∧ ¬ s.canEmit ∧
      (s.phase = .lit ∨ s.phase = .copy ∨ s.phase = .storedCopy ∧ 8 ≤ s.inp.cnt.toNat) := by
  rw [← outFull_iff]
  unfold State.holdOut
  cases s.top <;> cases s.phase <;> simp [and_comm]

theorem infStep_holdIn {s : State} (h : s.holdIn = true) : infStep s = .next { s with heldIn := true } := by
  obtain ⟨hr, c, hc, hn, hf, he⟩ := (holdIn_iff s).1 h
  rw [infStep_fill hr hc hn]
  simp [State.fill, hf, he]

theorem infStep_holdOut {s : State} (h : s.holdOut = true) : infStep s = .next { s with heldOut := true } := by
  obtain ⟨hr, hfull, hp | hp | ⟨hp, hn⟩⟩ := (holdOut_iff s).1 h
  · have hc : s.ctx = some .litEmit := by simp [State.ctx, hp]
    rw [infStep_decode hr hc (Nat.zero_le _), decodeAction_row (i := .lit .emit) rfl, exec_lit, execLit]
    exact State.infEmit_full _ hr hfull
  · have hc : s.ctx = some (.copy s.copy.len s.copy.dist) := by simp [State.ctx, hp]
    rw [infStep_decode hr hc (Nat.zero_le _), decodeAction_row (i := .matchCopy s.copy.len s.copy.dist) rfl,
      exec_matchCopy, execMatchCopy]
    exact State.infEmit_full _ hr hfull
  · have hc : s.ctx = some .storedByte := by simp [State.ctx, hp]
    obtain ⟨i, left, hd⟩ := fieldTo_isOk (fun v => .storedByte v) (natBits_length 8 s.inp.buf.toNat)
    obtain ⟨b, rfl⟩ := fieldTo_ok hd
    rw [infStep_decode hr hc hn, decodeAction_row (c := .storedByte) hd, exec_storedByte, execStoredByte]
    exact State.infEmit_full _ hr hfull

/-- A turn that waits for OUT_FIFO is one that R218 calls held. -/
theorem WaitsOut.holdOut {c : Ctx} {s t : State} (h : WaitsOut c s t) (hr : s.top = .running) (hc : s.ctx = some c)
    (hn : c.need ≤ s.inp.cnt.toNat) : s.holdOut = true := by
  obtain ⟨hemit, hfull, _⟩ := h
  have hat := State.ctx_at hc
  rw [holdOut_iff]
  rcases hemit with rfl | rfl | ⟨l, d, rfl⟩
  · exact ⟨hr, hfull, .inr (.inr ⟨hat, hn⟩)⟩
  · exact ⟨hr, hfull, .inl hat⟩
  · exact ⟨hr, hfull, .inr (.inl hat.1)⟩

/-- Settles O51: a held turn is a fill that finds no byte or an emit that finds no space, and every other turn clears the
flags. -/
theorem holdsOnlyWait : Obligations.HoldsOnlyWait := by
  refine fun s hr => ⟨infStep_holdIn, infStep_holdOut, fun t hheld h => ?_⟩
  obtain ⟨hin, hout⟩ : s.holdIn = false ∧ s.holdOut = false := by simpa [State.held] using hheld
  rcases infStep_front h with ⟨hstop, _⟩ | ⟨_, c, hc, ⟨hn, rfl⟩ | ⟨hn, hadv | hwait⟩⟩
  · exact absurd hr hstop
  · rcases s.fill_cases with ⟨b, rest, _, _, e⟩ | ⟨_, _, e⟩ | ⟨_, _, e⟩ | ⟨hf, he, _⟩
    · rw [e]
      exact ⟨rfl, rfl⟩
    · rw [e]
      exact ⟨rfl, rfl⟩
    · rw [e]
      exact ⟨rfl, rfl⟩
    · exact absurd ((holdIn_iff s).2 ⟨hr, c, hc, hn, hf, he⟩) (by simp [hin])
  · exact hadv.flags
  · exact absurd (hwait.holdOut hr hc hn) (by simp [hout])

/-! ## STATE -/

/-- What INF's turn can do to STATE (R20). -/
theorem infStep_top {s t : State} (h : infStep s = .next t) :
    t.top = s.top ∨
    (s.top = .running ∧ t.top = .done ∧ s.phase = .trailer ∧ t.zl.trailerN = 4 ∧ t.zl.trailerVal = t.adler) ∨
    (s.top = .running ∧ t.top = .failed) := by
  rcases infStep_front h with ⟨_, rfl⟩ | ⟨hr, c, hc, ⟨_, rfl⟩ | ⟨_, hadv | ⟨_, _, rfl⟩⟩⟩
  · exact .inl rfl
  · rcases s.fill_cases with ⟨b, rest, _, _, e⟩ | ⟨_, _, e⟩ | ⟨_, _, e⟩ | ⟨_, _, e⟩ <;> rw [e]
    · exact .inl rfl
    · exact .inr (.inr ⟨hr, rfl⟩)
    · exact .inr (.inr ⟨hr, rfl⟩)
    · exact .inl rfl
  · rcases hadv.ending with ⟨ht, _⟩ | ⟨ht, _⟩ | ⟨ht, _, rfl, hn, hv⟩
    · exact .inl ht
    · exact .inr (.inr ⟨hr, ht⟩)
    · exact .inr (.inl ⟨hr, ht, State.ctx_at hc, hn, hv⟩)
  · exact .inl rfl

theorem DataEffect.top {s t : State} (h : DataEffect s t) :
    t.top = s.top ∨ (s.top = .running ∧ t.top = .failed) := by
  cases h with
  | fails x hr => exact .inr ⟨hr, rfl⟩
  | accepts b hf => exact .inl rfl
  | aside w hf => exact .inl rfl

theorem ctrlWritten_top (s : State) (v : Word) :
    (s.ctrlWritten v).top =
      if v.getLsbD 0 = true then .running else if v.getLsbD 2 = true then .idle else s.top := by
  unfold State.ctrlWritten
  split_ifs <;> rfl

/-- Settles O48: INF ends a stream from RUNNING only, and of the host's rows START and ABORT set STATE and a push may fail. -/
theorem stateTransitions : Obligations.StateTransitions := by
  intro s t h
  rcases step_cases h with ⟨_, h⟩ | ⟨rest, _, h⟩ | ⟨a, rest, is, ha, hd, h⟩ | ⟨rest, ha, rfl⟩
  · rcases infStep_top h with e | e | e
    · exact .inl e
    · exact .inr (.inr (.inr (.inr (.inl e))))
    · exact .inr (.inr (.inr (.inr (.inr e))))
  · rcases infStep_top h with e | e | e
    · exact .inl e
    · exact .inr (.inr (.inr (.inr (.inl e))))
    · exact .inr (.inr (.inr (.inr (.inr e))))
  · rcases decodeHost_cases hd with ⟨v, rfl, rfl⟩ | ⟨i, rfl, hi, hstart, habort, _⟩ | rfl
    · rw [runAll_ctrlRows] at h
      cases h
      rw [ctrlWritten_top]
      split_ifs with h0 h2
      · exact .inr (.inl ⟨rfl, v, rest, ha, h0⟩)
      · exact .inr (.inr (.inl ⟨rfl, v, rest, ha, h2⟩))
      · exact .inl rfl
    · rw [runAll_one] at h
      rcases (hi.dataEffect hstart habort h).top with e | e
      · exact .inl e
      · exact .inr (.inr (.inr (.inr (.inr e))))
    · cases runAll_nil h
      exact .inl rfl
  · exact .inr (.inr (.inr (.inl ⟨rfl, rest, ha⟩)))

/-! ## The latches -/

/-- ALLOW and LIM. -/
def State.latches (s : State) : Bool × Word := (s.ctl.allow, s.ctl.lim)

theorem DataEffect.latches {s t : State} (h : DataEffect s t) : t.latches = s.latches := by
  cases h <;> rfl

theorem ctrlWritten_latches (s : State) (v : Word) :
    (s.ctrlWritten v).latches =
      if v.getLsbD 0 = true then (s.ctl.config.getLsbD 1, s.ctl.outLimit) else s.latches := by
  unfold State.ctrlWritten
  split_ifs <;> rfl

/-- One CTRL write, as one step (R24). -/
theorem step_ctrl {s : State} {v : Word} {rest : List Turn}
    (ha : s.agenda = .host (.write s.cfg.blockBase 4 v) :: rest) :
    step s = .next (State.ctrlWritten { s with agenda := rest } v) :=
  (step_host_rows ha (decodeHost_write s.cfg.blockBase (k := 0) (by decide) v)).trans (runAll_ctrlRows v _)

/-- A step whose turn is neither a START nor the reset input keeps the latches (R44, R231). -/
theorem step_latches {s t : State} (h : step s = .next t)
    (hstart : ∀ v rest, s.agenda = .host (.write s.cfg.blockBase 4 v) :: rest → v.getLsbD 0 = false)
    (hreset : ∀ rest, s.agenda ≠ .reset :: rest) : t.latches = s.latches := by
  rcases step_cases h with ⟨_, h⟩ | ⟨rest, _, h⟩ | ⟨a, rest, is, ha, hd, h⟩ | ⟨rest, ha, _⟩
  · rw [State.latches, infStep_ctl h]
    rfl
  · rw [State.latches, infStep_ctl h]
    rfl
  · rcases decodeHost_cases hd with ⟨v, rfl, rfl⟩ | ⟨i, rfl, hi, hne, habort, _⟩ | rfl
    · rw [runAll_ctrlRows] at h
      cases h
      rw [ctrlWritten_latches, if_neg (ne_true_of_eq_false (hstart v rest ha))]
      rfl
    · rw [runAll_one] at h
      exact (hi.dataEffect hne habort h).latches
    · cases runAll_nil h
      rfl
  · exact absurd ha (hreset rest)

/-- Settles O53: START writes both latches, the reset input clears them, and no other turn writes either. -/
theorem latchesChangeOnlyAtStart : Obligations.LatchesChangeOnlyAtStart := by
  refine fun s t h => ⟨?_, ?_, fun hstart hreset => ?_⟩
  · rintro ⟨v, rest, ha, h0⟩
    rw [step_ctrl ha] at h
    cases h
    have hl := ctrlWritten_latches { s with agenda := rest } v
    rw [if_pos h0] at hl
    exact Prod.mk.inj hl
  · rintro ⟨rest, ha⟩
    rw [step_reset ha] at h
    cases h
    exact ⟨rfl, rfl⟩
  · refine Prod.mk.inj (step_latches h (fun v rest ha => ?_) fun rest ha => hreset ⟨rest, ha⟩)
    exact Bool.eq_false_iff.2 fun h0 => hstart ⟨v, rest, ha, h0⟩

/-! ## CTRL, and the accesses that are refused -/

/-- Settles O10: the rows of a CTRL write run in order from the state that lost the turn, and CTRL reads as 0. -/
theorem ctrlPerformsInOrder : Obligations.CtrlPerformsInOrder := by
  refine ⟨fun s rest v ha => ?_, fun s rest ha => ?_⟩
  · let s1 : State := { s with agenda := rest }
    let a := if v.getLsbD 2 then s1.aborted else s1
    let b := if v.getLsbD 0 then a.started else a
    refine ⟨a, b, if v.getLsbD 1 then b.eoiGiven else b, ?_, ?_, ?_, step_ctrl ha⟩
    · unfold a
      split <;> rfl
    · unfold b
      split <;> rfl
    · split
      · exact execEoi_eq b
      · rfl
  · have hd : decodeHost s.cfg.blockBase (.read s.cfg.blockBase 4) = .ok [.rdReg 0] :=
      decodeHost_read s.cfg.blockBase (k := 0) (by decide)
    exact (step_host_rows ha hd).trans (runAll_one _ _)

theorem State.infEmit_ne_refused {s : State} {k : State → Out} {r : Refusal} (hk : k s.unhold ≠ .refused r) :
    s.infEmit k ≠ .refused r := by
  by_cases hr : s.top = .running
  · by_cases hc : s.canEmit
    · rwa [State.infEmit_space k hr hc]
    · rw [State.infEmit_full k hr hc]
      exact nofun
  · rw [State.infEmit_stopped k hr]
    exact nofun

/-- Every row has a meaning: none is refused. -/
theorem exec_ne_refused (i : Instr) (s : State) (r : Refusal) : exec i s ≠ .refused r := by
  rcases row_performer i with hi | hi | hi
  · obtain ⟨t, ht⟩ := hi.answers s
    rw [ht]
    exact nofun
  · cases hi with
    | storedByte b =>
      rw [exec_storedByte, execStoredByte]
      exact State.infEmit_ne_refused nofun
    | litEmit =>
      rw [exec_lit, execLit]
      exact State.infEmit_ne_refused nofun
    | matchCopy len dist =>
      rw [exec_matchCopy, execMatchCopy]
      refine State.infEmit_ne_refused ?_
      split <;> exact nofun
  · obtain ⟨t, ht⟩ := hi.answers s
    rw [ht]
    exact nofun

theorem runAll_ne_refused (is : List Instr) (s : State) (r : Refusal) : runAll is s ≠ .refused r := by
  induction is generalizing s with
  | nil => exact nofun
  | cons i is ih =>
    unfold runAll
    have hi := exec_ne_refused i s
    split
    · exact ih _
    · exact nofun
    · rename_i r' he
      exact absurd he (hi r')

theorem infStep_ne_refused (s : State) (r : Refusal) : infStep s ≠ .refused r := by
  by_cases hr : s.top = .running
  · rw [infStep_running hr]
    unfold runningAction
    split
    · exact nofun
    · split
      · exact nofun
      · unfold decodeAction
        split
        · exact runAll_ne_refused _ s r
        all_goals exact nofun
  · rw [infStep_stopped hr]
    exact nofun

/-- A step is refused where its turn is a host access that does not decode (R43, R74). -/
theorem step_refused_iff (s : State) :
    (∃ r, step s = .refused r) ↔
      ∃ a rest e, s.agenda = .host a :: rest ∧ decodeHost s.cfg.blockBase a = .error e := by
  constructor
  · rintro ⟨r, h⟩
    match ha : s.agenda with
    | [] => exact absurd ((step_inf_nil ha).symm.trans h) (infStep_ne_refused _ r)
    | .inf :: rest => exact absurd ((step_inf_cons ha).symm.trans h) (infStep_ne_refused _ r)
    | .reset :: rest => exact absurd ((step_reset ha).symm.trans h) nofun
    | .host a :: rest =>
      match hd : decodeHost s.cfg.blockBase a with
      | .ok is => exact absurd ((step_host_rows ha hd).symm.trans h) (runAll_ne_refused is _ r)
      | .error e => exact ⟨a, rest, e, rfl, hd⟩
  · rintro ⟨a, rest, e, ha, hd⟩
    exact ⟨.access e, by simp [step_host ha, hostAction, hd, Action.out]⟩

theorem regIndex_error_iff {base addr width : Nat} :
    (∃ e, regIndex base addr width = .error e) ↔
      ¬ (width = 4 ∧ base ≤ addr ∧ addr < base + 128 ∧ (addr - base) % 4 = 0) := by
  unfold regIndex
  split_ifs with hw hout hal
  · simp [hw]
  · rw [Config.regSpace] at hout
    exact iff_of_true ⟨_, rfl⟩ (by omega)
  · exact iff_of_true ⟨_, rfl⟩ (by omega)
  · rw [Config.regSpace] at hout
    exact iff_of_false nofun (by omega)

/-- An access decodes unless its address and width name no register. -/
theorem decodeHost_read_error {base addr width : Nat} {e : HostReject} :
    decodeHost base (.read addr width) = .error e ↔ regIndex base addr width = .error e := by
  cases h : regIndex base addr width <;> simp [decodeHost, h]

theorem decodeHost_write_error {base addr width : Nat} {v : Word} {e : HostReject} :
    decodeHost base (.write addr width v) = .error e ↔ regIndex base addr width = .error e := by
  cases h : regIndex base addr width <;> simp [decodeHost, h]

/-- Settles O13: INF's turns and decoded rows always answer, so only an access that names no register is refused. -/
theorem onlyBadAccessesRefused : Obligations.OnlyBadAccessesRefused := by
  intro s
  rw [step_refused_iff]
  constructor
  · rintro ⟨a, rest, e, ha, hd⟩
    cases a with
    | read addr width =>
      exact ⟨rest, addr, width, .inl ha, regIndex_error_iff.1 ⟨e, decodeHost_read_error.1 hd⟩⟩
    | write addr width v =>
      exact ⟨rest, addr, width, .inr ⟨v, ha⟩, regIndex_error_iff.1 ⟨e, decodeHost_write_error.1 hd⟩⟩
  · rintro ⟨rest, addr, width, ha | ⟨v, ha⟩, hbad⟩
    all_goals obtain ⟨e, he⟩ := regIndex_error_iff.2 hbad
    · exact ⟨_, rest, e, ha, decodeHost_read_error.2 he⟩
    · exact ⟨_, rest, e, ha, decodeHost_write_error.2 he⟩

/-! ## The host's reads -/

/-- A read other than a pop writes the value read only (R31, R74). -/
theorem exec_readRow {k : Nat} (hk : k ≠ 9) (s : State) : ∃ v, exec (readRow k) s = .next { s with rdata := v } := by
  unfold readRow
  split
  · exact absurd rfl hk
  all_goals exact ⟨_, rfl⟩

theorem execPop_drop (s : State) :
    ∃ v, execPop s = .next { s with rdata := v, out := { s.out with fifo := s.out.fifo.drop 1 } } := by
  unfold execPop
  split
  · rename_i b rest hf
    exact ⟨_, by rw [hf]; rfl⟩
  · rename_i hf
    have hdrop : s.out.fifo.drop 1 = s.out.fifo := by
      rw [hf]
      rfl
    exact ⟨0, by rw [hdrop]⟩

/-- Settles O55: a read decodes to one row, and only OUT_DATA's writes more than the value read. -/
theorem readsHaveNoSideEffect : Obligations.ReadsHaveNoSideEffect := by
  intro s t addr width rest ha h
  match hk : regIndex s.cfg.blockBase addr width with
  | .error e =>
    rw [step_host ha] at h
    simp [hostAction, decodeHost_read_error.2 hk, Action.out] at h
  | .ok k =>
    obtain ⟨rfl, hlt, rfl⟩ := regIndex_ok_iff.1 hk
    rw [step_host_rows ha (decodeHost_read _ hlt), runAll_one] at h
    refine ⟨fun hne => ?_, fun he => ?_⟩
    · obtain ⟨v, hv⟩ := exec_readRow (k := k) (by omega) { s with agenda := rest }
      cases hv.symm.trans h
      rfl
    · obtain rfl : k = 9 := by omega
      obtain ⟨v, hv⟩ := execPop_drop { s with agenda := rest }
      cases hv.symm.trans h
      rfl

end Sys2Proof.Machine
end

section
/-! PROOF. The host's rows as accesses and what their reads return: the encodings of 30_encoding.md section 5, START and
ABORT, the registers of 10_state.md, and the fields of STATUS. -/

namespace Sys2Proof.Machine

/-! ## Accesses -/

/-- A register that RD_REG reads has no row of its own (R98, R108). -/
theorem readRow_of_wf {k : BitVec 5} (h : wfReadReg k = true) : readRow k.toNat = .rdReg k := by
  obtain ⟨⟨h9, h18⟩, h20⟩ : (k ≠ 9 ∧ k ≠ 18) ∧ k ≠ 20 := by simpa [wfReadReg] using h
  unfold readRow
  split
  · exact absurd (BitVec.eq_of_toNat_eq ‹_›) h9
  · exact absurd (BitVec.eq_of_toNat_eq ‹_›) h18
  · exact absurd (BitVec.eq_of_toNat_eq ‹_›) h20
  · rw [BitVec.ofNat_toNat, BitVec.setWidth_eq]

/-- Settles O3: each host row's access names its register, and the register's rows are that row. -/
theorem hostDecodeInvertsEncode : Obligations.HostDecodeInvertsEncode := by
  intro base i a hwf h
  have hread : ∀ {k : Nat}, k < 32 → decodeHost base (.read (base + 4 * k) 4) = .ok [readRow k] := decodeHost_read base
  have hwrite : ∀ {k : Nat}, k < 32 → ∀ v, decodeHost base (.write (base + 4 * k) 4 v) = .ok (writeRows k v) :=
    decodeHost_write base
  cases i with
  | start => cases h; exact hwrite (k := 0) (by decide) 1
  | eoi => cases h; exact hwrite (k := 0) (by decide) 2
  | abort => cases h; exact hwrite (k := 0) (by decide) 4
  | push b =>
    cases h
    refine (hwrite (k := 8) (by decide) _).trans ?_
    simp [writeRows]
  | pop => cases h; exact hread (k := 9) (by decide)
  | wrConfig v => cases h; exact hwrite (k := 1) (by decide) v
  | wrOutLimit v => cases h; exact hwrite (k := 7) (by decide) v
  | wrCrcExpect v => cases h; exact hwrite (k := 19) (by decide) v
  | rdReg k =>
    cases h
    rw [hread k.isLt, readRow_of_wf hwf]
  | crcInit => cases h; exact hwrite (k := 16) (by decide) 1
  | crcByte b =>
    cases h
    refine (hwrite (k := 17) (by decide) _).trans ?_
    simp [writeRows]
  | rdCrcValue => cases h; exact hread (k := 18) (by decide)
  | rdCrcStatus => cases h; exact hread (k := 20) (by decide)
  | _ => cases h

/-! ## Commands -/

/-- Settles O29: START and ABORT are ClearStream and the writes named, field by field. -/
theorem startAndAbort : Obligations.StartAndAbort := fun _ => ⟨rfl, rfl⟩

/-! ## Reads -/

/-- POP's VALID bit stands above the byte (R31). -/
theorem pop_value (b : Byte) : (0x100 ||| b.setWidth 32 : Word).toNat = 256 + b.toNat := by
  have hb := b.isLt
  rw [BitVec.toNat_or, BitVec.toNat_setWidth, Nat.mod_eq_of_lt (by omega)]
  exact (Nat.two_pow_add_eq_or_of_lt (i := 8) hb 1).symm

theorem crcValue_eq_not (s : State) : s.crcValue = ~~~ s.crc.reg :=
  BitVec.xor_allOnes

theorem errWord_toNat (s : State) :
    s.errWord.toNat = s.err.kind.toNat + 256 * s.err.cause.toNat + 65536 * s.err.bits.toNat := by
  have := s.err.kind.isLt
  have := s.err.cause.isLt
  have := s.err.bits.isLt
  rw [State.errWord, BitVec.toNat_ofNat]
  omega

theorem adler_toNat (s : State) : s.adler.toNat = 65536 * s.out.s2.toNat + s.out.s1.toNat := by
  have := s.out.s1.isLt
  have := s.out.s2.isLt
  rw [State.adler, BitVec.toNat_ofNat]
  omega

theorem blockWord_toNat (s : State) : s.blockWord.toNat = s.blk.bfinal.toNat + 2 * s.blk.btype.toNat := by
  have := s.blk.bfinal.toNat_le
  have := s.blk.btype.isLt
  rw [State.blockWord, BitVec.toNat_ofNat]
  omega

theorem levels_toNat (s : State) (hi : s.inp.fifo.length ≤ 65535) (ho : s.out.fifo.length ≤ 65535) :
    s.levels.toNat = s.inp.fifo.length + 65536 * s.out.fifo.length := by
  rw [State.levels, BitVec.toNat_ofNat]
  omega

theorem zhdrWord_toNat (s : State) : s.zhdrWord.toNat = s.zl.cmf.toNat + 256 * s.zl.flg.toNat := by
  have := s.zl.cmf.isLt
  have := s.zl.flg.isLt
  rw [State.zhdrWord, BitVec.toNat_ofNat]
  omega

/-- The registers that read as 0 (R24, R30, R37, R38, R43). -/
theorem readReg_zero (s : State) {k : Nat} (h : k = 0 ∨ k = 8 ∨ k = 15 ∨ k = 16 ∨ k = 17 ∨ 22 ≤ k) : s.readReg k = 0 := by
  unfold State.readReg
  split
  case h_17 => rfl
  all_goals omega

/-- Settles O31: POP by the FIFO's two cases, and each register's word by its fields. -/
theorem hostReads : Obligations.HostReads := by
  refine ⟨fun s => ⟨fun b rest hf => ⟨_, pop_value b, ?_⟩, fun hf => ?_⟩, fun s => ⟨?_, ?_⟩, fun k s => ?_⟩
  · simp [execPop, hf]
  · simp [execPop, hf]
  · rw [exec_rdCrcValue, execRdCrcValue, crcValue_eq_not]
  · rw [exec_rdCrcStatus, execRdCrcStatus, State.crcMatch, crcValue_eq_not]
    by_cases h : ~~~ s.crc.reg = s.crc.expect
    · simp [h]
    · simp [h, beq_eq_false_iff_ne.2 h]
  · refine ⟨s.readReg k.toNat, rfl, ?_⟩
    refine ⟨?_, ?_, ?_, ?_, ?_, ?_, ?_, ?_, ?_, ?_, ?_, ?_, ?_, ?_, ?_⟩
    · rintro rfl
      have := s.ctl.config.isLt
      change (s.ctl.config.setWidth 32).toNat = _
      rw [BitVec.toNat_setWidth]
      exact Nat.mod_eq_of_lt (by omega)
    · rintro rfl
      rfl
    · rintro rfl
      exact errWord_toNat s
    · rintro rfl
      rfl
    · rintro rfl
      rfl
    · rintro rfl
      rfl
    · rintro rfl
      rfl
    · rintro rfl
      exact adler_toNat s
    · rintro rfl
      exact blockWord_toNat s
    · rintro rfl
      exact levels_toNat s
    · rintro rfl
      exact zhdrWord_toNat s
    · rintro rfl
      rfl
    · rintro rfl
      rfl
    · rintro rfl
      rfl
    · intro h
      exact readReg_zero s (h.imp (congrArg BitVec.toNat) <| Or.imp (congrArg BitVec.toNat) <|
        Or.imp (congrArg BitVec.toNat) <| Or.imp (congrArg BitVec.toNat) <| Or.imp (congrArg BitVec.toNat) id)

/-! ## STATUS -/

theorem Top.code_lt (t : Top) : t.code < 4 := by
  cases t <;> decide

theorem Phase.code_lt (p : Phase) : p.code < 32 := by
  cases p <;> decide

/-- STATUS as a number: its fields, none of which runs into the next (R26). -/
theorem status_toNat (s : State) :
    s.status.toNat =
      s.top.code + 4 * s.eoiSeen.toNat + 8 * s.inDrop.toNat + 16 * s.inFull.toNat + 32 * s.outEmpty.toNat +
        64 * s.irq.toNat + 128 * s.heldIn.toNat + 256 * s.heldOut.toNat + 65536 * s.phase.code := by
  have := s.top.code_lt
  have := s.phase.code_lt
  have := s.eoiSeen.toNat_le
  have := s.inDrop.toNat_le
  have := s.inFull.toNat_le
  have := s.outEmpty.toNat_le
  have := s.irq.toNat_le
  have := s.heldIn.toNat_le
  have := s.heldOut.toNat_le
  rw [State.status, BitVec.toNat_ofNat]
  omega

theorem getLsbD_of_toNat {w : Word} {i : Nat} {b : Bool} (h : w.toNat / 2 ^ i % 2 = b.toNat) : w.getLsbD i = b := by
  rw [BitVec.getLsbD, Nat.testBit_eq_decide_div_mod_eq, h]
  cases b <;> rfl

theorem extractLsb'_of_toNat {w : Word} {i n v : Nat} (h : w.toNat / 2 ^ i % 2 ^ n = v % 2 ^ n) :
    w.extractLsb' i n = BitVec.ofNat n v := by
  refine BitVec.eq_of_toNat_eq ?_
  rw [BitVec.extractLsb'_toNat, Nat.shiftRight_eq_div_pow, h, BitVec.toNat_ofNat]

/-- Each field of STATUS in its place, and 0 between them (R26). -/
theorem status_fields (s : State) :
    s.status.extractLsb' 0 2 = BitVec.ofNat 2 s.top.code ∧
    s.status.getLsbD 2 = s.eoiSeen ∧ s.status.getLsbD 3 = s.inDrop ∧ s.status.getLsbD 4 = s.inFull ∧
    s.status.getLsbD 5 = s.outEmpty ∧ s.status.getLsbD 6 = s.irq ∧ s.status.getLsbD 7 = s.heldIn ∧
    s.status.getLsbD 8 = s.heldOut ∧ s.status.extractLsb' 9 7 = BitVec.ofNat 7 0 ∧
    s.status.extractLsb' 16 5 = BitVec.ofNat 5 s.phase.code ∧ s.status.extractLsb' 21 11 = BitVec.ofNat 11 0 := by
  have hword := status_toNat s
  have := s.top.code_lt
  have := s.phase.code_lt
  have := s.eoiSeen.toNat_le
  have := s.inDrop.toNat_le
  have := s.inFull.toNat_le
  have := s.outEmpty.toNat_le
  have := s.irq.toNat_le
  have := s.heldIn.toNat_le
  have := s.heldOut.toNat_le
  refine ⟨extractLsb'_of_toNat ?_, getLsbD_of_toNat ?_, getLsbD_of_toNat ?_, getLsbD_of_toNat ?_, getLsbD_of_toNat ?_,
    getLsbD_of_toNat ?_, getLsbD_of_toNat ?_, getLsbD_of_toNat ?_, extractLsb'_of_toNat ?_, extractLsb'_of_toNat ?_,
    extractLsb'_of_toNat ?_⟩
  all_goals omega

theorem inFull_eq (s : State) : s.inFull = decide (s.inp.fifo.length = s.cfg.inDepth) := rfl

theorem outEmpty_eq (s : State) : s.outEmpty = decide (s.out.fifo = []) := by
  unfold State.outEmpty
  cases s.out.fifo <;> simp

theorem irq_eq (s : State) : s.irq = (s.ctl.config.getLsbD 0 && decide (s.top = .done ∨ s.top = .failed)) := by
  unfold State.irq State.irqEn
  cases s.top <;> rfl

/-- A block at reset has an empty FIFO on both sides, and depths that are not 0 (R7, R26). -/
theorem status_resetWith {cfg : Config} (h : cfg.wf = true) : (State.resetWith cfg).status = 0x20 := by
  have hfull : (State.resetWith cfg).inFull = false := by
    have hdepth : 1 ≤ cfg.inDepth := by
      simp only [Config.wf, Bool.and_eq_true, decide_eq_true_eq] at h
      exact h.1.1.1
    exact beq_false_of_ne (Nat.ne_of_lt hdepth)
  refine BitVec.eq_of_toNat_eq ?_
  have hirq : (State.resetWith cfg).irq = false := Bool.and_false _
  rw [status_toNat, hfull, hirq]
  rfl

/-- The registers that a write leaves alone have no rows (R43, R108). -/
theorem writeRows_nil {k : Nat} (h : k ∉ [0, 1, 7, 8, 16, 17, 19]) (v : Word) : writeRows k v = [] := by
  unfold writeRows
  split
  case h_8 => rfl
  all_goals simp at h

/-- Settles O32: STATUS field by field, the codes, the reset value, and the writes that perform no row. -/
theorem statusFields : Obligations.StatusFields := by
  refine ⟨fun s => ?_, ⟨rfl, rfl⟩, fun cfg => status_resetWith, fun s k v rest hk hne ha => ?_⟩
  · rw [← inFull_eq, ← outEmpty_eq, ← irq_eq]
    exact status_fields s
  · rw [step_host_rows ha (decodeHost_write _ hk v), writeRows_nil hne]
    rfl

end Sys2Proof.Machine
end

section
/-! PROOF. The canonical code, read back: a code of n bits is n steps of R125, and the registers after l of them are those
that the counts and the bits so far give (R60, R121 to R125). -/

namespace Sys2Proof

/-! ## The code space -/

/-- How many of the 2^l strings of l bits begin with a code of at most l bits; the first code of l + 1 bits is twice it
(R121). -/
def Table.used (t : Table) : Nat → Nat
  | 0 => 0
  | l + 1 => 2 * t.used l + t.countOf (l + 1)

theorem Table.countOf_succ {t : Table} {l : Nat} (h : l < t.count.length) : t.countOf (l + 1) = t.count[l].toNat := by
  simp [Table.countOf, h]

theorem Table.counts_drop {t : Table} {l : Nat} (h : l < t.count.length) :
    (t.count.map BitVec.toNat).drop l = t.countOf (l + 1) :: (t.count.map BitVec.toNat).drop (l + 1) := by
  rw [List.drop_eq_getElem_cons (by simpa using h), List.getElem_map, Table.countOf_succ h]

/-- The `left` of R123 after length l is the code space that the codes so far have not used. -/
theorem Table.left_eq_kraftLeft {t : Table} (h : t.left ≠ none) :
    ∀ l, l ≤ t.count.length → ∃ y, kraftLeft ((t.count.map BitVec.toNat).drop l) y = t.left ∧ y + t.used l = 2 ^ l
  | 0, _ => ⟨1, rfl, rfl⟩
  | l + 1, hl => by
    obtain ⟨y, hy, hsum⟩ := Table.left_eq_kraftLeft h l (Nat.le_of_lt hl)
    rw [Table.counts_drop hl, kraftLeft] at hy
    split_ifs at hy with hover
    · exact absurd hy.symm h
    · refine ⟨_, hy, ?_⟩
      rw [Table.used, Nat.pow_succ']
      omega

/-- A set that is not over-subscribed uses no more than there is (R123). -/
theorem Table.used_le {t : Table} (h : t.left ≠ none) {l : Nat} (hl : l ≤ t.count.length) : t.used l ≤ 2 ^ l := by
  obtain ⟨y, _, hsum⟩ := Table.left_eq_kraftLeft h l hl
  omega

/-- A string that begins with a code of at most l bits still does with m more bits (R121). -/
theorem Table.used_mul_le (t : Table) (l m : Nat) : t.used l * 2 ^ m ≤ t.used (l + m) := by
  induction m with
  | zero => simp
  | succ m ih =>
    rw [← Nat.add_assoc, Table.used, Nat.pow_succ, ← Nat.mul_assoc]
    omega

theorem Table.upTo_one (t : Table) : t.upTo 1 = t.countOf 1 := by
  rw [t.upTo_succ 0]
  exact Nat.zero_add _

theorem Table.upTo_mono (t : Table) : Monotone t.upTo :=
  monotone_nat_of_le_succ fun l => by
    rw [t.upTo_succ l]
    exact Nat.le_add_right _ _

/-! ## The registers inside a code -/

/-- The HC registers after l bits, whose value is p, of a code of table t (R51, R125). -/
structure Hc.After (h : Hc) (t : Table) (l p : Nat) : Prop where
  code : h.code.toNat = 2 * p
  first : h.first.toNat = 2 * t.used l
  index : h.index.toNat = t.upTo l
  len : h.len.toNat = l

theorem Hc.zero_after (t : Table) : Hc.zero.After t 0 0 := ⟨rfl, rfl, rfl, rfl⟩

/-- The next bit stands below the ones before it (R60). -/
theorem Hc.After.code_bit {h : Hc} {t : Table} {l p : Nat} (hh : h.After t l p) (b : Bool) :
    (h.code ||| BitVec.ofNat 16 b.toNat).toNat = 2 * p + b.toNat := by
  have hb : (BitVec.ofNat 16 b.toNat).toNat = b.toNat := by cases b <;> rfl
  rw [BitVec.toNat_or, hh.code, hb, Nat.mul_comm, ← pow_one 2, ← Nat.shiftLeft_eq,
    ← Nat.shiftLeft_add_eq_or_of_lt (by cases b <;> decide)]

section
variable {t : Table} {n : Nat} (hf : t.formed n) (hn : n < 512) (hleft : t.left ≠ none)
include hf hn hleft

/-- A bit that leaves the value at or above the codes of its length goes on (R125). -/
theorem Hc.After.codeBit_more {h : Hc} {l p : Nat} (hh : h.After t l p) {b : Bool} (hl : l + 1 < 15)
    (hs : t.single = false) (hp : 2 * p + b.toNat < 2 ^ (l + 1)) (hge : t.used (l + 1) ≤ 2 * p + b.toNat) :
    ∃ h', codeBit t h b = .more h' ∧ h'.After t (l + 1) (2 * p + b.toNat) := by
  have hused := Table.used_le hleft (l := l + 1) (by rw [hf.lengths]; omega)
  have hpow : 2 ^ (l + 1) ≤ 2 ^ 14 := Nat.pow_le_pow_right (by decide) (by omega)
  have hup := t.upTo_succ l
  have htotal := t.upTo_le_total (l + 1)
  have hsyms := hf.total
  have hsize := hf.size
  have hcode := hh.code_bit b
  rw [Table.used] at hge hused
  unfold codeBit
  simp only [hh.first, hh.index, hh.len, hcode, hs]
  rw [if_neg (by omega), if_neg (by decide), if_neg (by omega)]
  refine ⟨_, rfl, ?_, ?_, ?_, ?_⟩
  · rw [BitVec.toNat_shiftLeft, hcode, Nat.shiftLeft_eq]
    omega
  · rw [BitVec.toNat_ofNat, Table.used]
    omega
  · rw [BitVec.toNat_ofNat, hup]
    omega
  · rw [BitVec.toNat_ofNat]
    omega

omit hf hn hleft in
/-- A bit that brings the value below the end of the codes of its length ends the code (R125). -/
theorem Hc.After.codeBit_sym {h : Hc} {l p i : Nat} (hh : h.After t l p) {b : Bool} {x : BitVec 9}
    (hv : 2 * p + b.toNat = 2 * t.used l + i) (hi : i < t.countOf (l + 1)) (hx : t.syms[t.upTo l + i]? = some x) :
    codeBit t h b = .sym x.toNat := by
  have hplace : t.upTo l + (2 * p + b.toNat) - 2 * t.used l = t.upTo l + i := by omega
  unfold codeBit
  simp only [hh.first, hh.index, hh.len, hh.code_bit b]
  rw [if_pos (by omega), hplace, hx]

end

/-! ## A code -/

/-- The most significant bit of a code comes first (R60). -/
theorem codeBits_succ (n v : Nat) : codeBits (n + 1) v = (v / 2 ^ n % 2 == 1) :: codeBits n v := by
  rw [codeBits, Machine.natBits_add, List.reverse_append]
  rfl

/-- The value of the bits so far, with the next bit read. -/
theorem firstBits_succ (v k : Nat) : 2 * (v / 2 ^ (k + 1)) + (v / 2 ^ k % 2 == 1).toNat = v / 2 ^ k := by
  have hbit : (v / 2 ^ k % 2 == 1).toNat = v / 2 ^ k % 2 := by
    rcases Nat.mod_two_eq_zero_or_one (v / 2 ^ k) with e | e <;> rw [e] <;> rfl
  rw [hbit, Nat.pow_succ, ← Nat.div_div_eq_div_mul]
  exact Nat.div_add_mod _ _

/-- The first bits of a code of m + 1 bits are none of the codes that are shorter (R121). -/
theorem Table.used_le_firstBits (t : Table) (i : Nat) {l k m : Nat} (h : l + k = m) :
    t.used l ≤ (2 * t.used m + i) / 2 ^ (k + 1) := by
  have := t.used_mul_le l k
  rw [h] at this
  rw [Nat.le_div_iff_mul_le (Nat.two_pow_pos _), Nat.pow_succ, ← Nat.mul_assoc]
  omega

/-- A table whose codes a decoder can read: `Table.codes` without the clause that no symbol stands twice. -/
structure Table.Readable (t : Table) : Prop where
  formed : t.formed Config.llSyms
  notOver : t.left ≠ none
  notEmpty : t.empty = false
  single : t.single = true → t.countOf 1 = t.syms.length

theorem Table.codes.readable {t : Table} (h : t.codes) : t.Readable := ⟨h.formed, h.notOver, h.notEmpty, h.single⟩

section
variable {t : Table} (ht : t.Readable) {m i : Nat} {x : BitVec 9} (hm : m < 15) (hi : i < t.countOf (m + 1))
  (hx : t.syms[t.upTo m + i]? = some x)
include ht hm hi

/-- The codes of one length are numbers of that length (R121). -/
theorem Table.Readable.code_lt : 2 * t.used m + i < 2 ^ (m + 1) := by
  have := Table.used_le ht.notOver (l := m + 1) (by rw [ht.formed.lengths]; omega)
  rw [Table.used] at this
  omega

omit hm hi
include hx

/-- A table that is SINGLE has no code of more than one bit (R124). -/
theorem Table.Readable.not_single (h0 : m ≠ 0) : t.single = false := by
  by_contra hne
  have hall := ht.single (by simpa using hne)
  have hplace := (List.getElem?_eq_some_iff.1 hx).1
  have hone := t.upTo_mono (Nat.one_le_iff_ne_zero.2 h0)
  rw [t.upTo_one] at hone
  omega

include hm hi

/-- From l bits into a code of m + 1 bits on, its other bits lead to its symbol (R125). -/
theorem Table.Readable.decodeBits_eq (rest : List Bool) (k l : Nat) (h : Hc) (hlk : l + k = m)
    (hh : h.After t l ((2 * t.used m + i) / 2 ^ (k + 1))) :
    decodeBits t (codeBits (k + 1) (2 * t.used m + i) ++ rest) h = .ok (x.toNat, rest) := by
  induction k generalizing l h with
  | zero =>
    obtain rfl : l = m := hlk
    have hend := firstBits_succ (2 * t.used l + i) 0
    rw [Nat.pow_zero, Nat.div_one] at hend
    rw [codeBits_succ, List.cons_append, decodeBits, Nat.pow_zero, Nat.div_one, hh.codeBit_sym hend hi hx]
    rfl
  | succ k ih =>
    have hnext := firstBits_succ (2 * t.used m + i) (k + 1)
    have hlt : (2 * t.used m + i) / 2 ^ (k + 1) < 2 ^ (l + 1) := by
      rw [Nat.div_lt_iff_lt_mul (Nat.two_pow_pos _), ← Nat.pow_add, show l + 1 + (k + 1) = m + 1 by omega]
      exact ht.code_lt hm hi
    have hge := t.used_le_firstBits i (show l + 1 + k = m by omega)
    obtain ⟨h', he, hh'⟩ := hh.codeBit_more ht.formed (by decide) ht.notOver (by omega)
      (ht.not_single hx (by omega)) (hnext.trans_lt hlt) (hge.trans hnext.ge)
    rw [codeBits_succ, List.cons_append, decodeBits, he]
    exact ih (l + 1) h' (by omega) (hnext ▸ hh')

/-- The code at place i among those of m + 1 bits decodes to the symbol that SYMS has there (R60, R121, R125). -/
theorem Table.Readable.decodeCode_eq (rest : List Bool) :
    decodeCode t Hc.zero (codeBits (m + 1) (2 * t.used m + i) ++ rest) = .ok (x.toNat, rest) := by
  have hstop : emptyStop t Hc.zero = false := by simp [emptyStop, ht.notEmpty]
  have hzero : (2 * t.used m + i) / 2 ^ (m + 1) = 0 := Nat.div_eq_of_lt (ht.code_lt hm hi)
  rw [decodeCode, hstop, if_neg (by decide)]
  exact ht.decodeBits_eq hm hi hx rest m 0 Hc.zero (Nat.zero_add m) (hzero ▸ Hc.zero_after t)

end

/-! ## The canonical assignment -/

/-- A used symbol stands in its length's part of SYMS after the lower symbols of that length (R122). -/
theorem symsOfLen_getElem? {lens : List (BitVec 4)} {s l : Nat} {x : BitVec 4} (hs : lens[s]? = some x)
    (hl : x.toNat = l) (first : Nat) :
    (symsOfLen l first lens)[lenCount (lens.take s) l]? = some (BitVec.ofNat 9 (first + s)) := by
  induction lens generalizing s first with
  | nil => cases hs
  | cons y ys ih =>
    match s with
    | 0 =>
      obtain rfl : y = x := Option.some.inj hs
      simp [symsOfLen, lenCount, hl]
    | s + 1 =>
      have hih := ih (s := s) hs (first + 1)
      rw [List.take_succ_cons, lenCount, List.countP_cons, ← lenCount, symsOfLen,
        show first + (s + 1) = first + 1 + s by omega]
      by_cases hy : y.toNat = l
      · simpa [hy] using hih
      · simpa [hy] using hih

theorem lenCount_take_lt {lens : List (BitVec 4)} {s l : Nat} {x : BitVec 4} (hs : lens[s]? = some x)
    (hl : x.toNat = l) : lenCount (lens.take s) l < lenCount lens l := by
  rw [← symsOfLen_length l 0 lens]
  exact (List.getElem?_eq_some_iff.1 (symsOfLen_getElem? hs hl 0)).1

theorem codeLens_getElem : ∀ (l : Nat) (h : l < codeLens.length), codeLens[l] = l + 1 := by decide

section
variable {lens : List (BitVec 4)} (hlens : lensOk lens)
include hlens

theorem buildTable_readable (hleft : (buildTable lens).left ≠ none) : (buildTable lens).Readable :=
  ⟨buildTable_formed hlens (by decide), hleft, rfl, nofun⟩

theorem buildTable_countOf {l : Nat} (hl : l < 15) : (buildTable lens).countOf (l + 1) = lenCount lens (l + 1) := by
  have hlt : lenCount lens (l + 1) < 2 ^ 9 :=
    Nat.lt_of_le_of_lt (Nat.le_trans (lenCount_le lens (l + 1)) hlens) (by decide)
  rw [Table.countOf_succ hl]
  simp only [buildTable, List.getElem_map, codeLens_getElem]
  rw [BitVec.toNat_ofNat, Nat.mod_eq_of_lt hlt]

/-- The first code of each length is the model's NEXT_CODE of R121. -/
theorem firstCode_eq {l : Nat} (hl : l ≤ 15) : firstCode lens (l + 1) = 2 * (buildTable lens).used l := by
  induction l with
  | zero => rfl
  | succ l ih =>
    rw [firstCode, ih (by omega), if_neg (Nat.succ_ne_zero l), Table.used, buildTable_countOf hlens hl, Nat.mul_comm]

/-- Build puts a used symbol after the symbols of shorter codes and the lower ones of its length (R122). -/
theorem buildTable_place {s m : Nat} {x : BitVec 4} (hs : lens[s]? = some x) (hx : x.toNat = m + 1) :
    (buildTable lens).syms[(buildTable lens).upTo m + lenCount (lens.take s) (m + 1)]? = some (BitVec.ofNat 9 s) := by
  have hm : m < codeLens.length := by
    have := x.isLt
    rw [show codeLens.length = 15 from rfl]
    omega
  have hup : (buildTable lens).upTo m = ((codeLens.take m).flatMap fun l => symsOfLen l 0 lens).length := by
    rw [Table.upTo, buildTable_counts (Nat.lt_of_le_of_lt hlens (by decide)), List.length_flatMap, ← List.map_take]
    simp only [symsOfLen_length]
  have hsyms : (buildTable lens).syms = ((codeLens.take m).flatMap fun l => symsOfLen l 0 lens) ++
      (symsOfLen (m + 1) 0 lens ++ (codeLens.drop (m + 1)).flatMap fun l => symsOfLen l 0 lens) := by
    conv_lhs => rw [buildTable, ← List.take_append_drop m codeLens, List.drop_eq_getElem_cons hm, codeLens_getElem m hm]
    rw [List.flatMap_append, List.flatMap_cons]
  have hplace := symsOfLen_getElem? hs hx 0
  rw [Nat.zero_add] at hplace
  rw [hup, hsyms, List.getElem?_append_right (Nat.le_add_right _ _), Nat.add_sub_cancel_left,
    List.getElem?_append_left (List.getElem?_eq_some_iff.1 hplace).1, hplace]

end

/-- Settles O4: the canonical code of a symbol is the one at the symbol's place in Build's table, and a readable table
decodes the code at any of its places. -/
theorem canonicalCodesDecode : Obligations.CanonicalCodesDecode := by
  intro lens s rest hlens hleft hs h0
  have hx : lens[s]? = some (lens.getD s 0) := by simp [hs]
  generalize hxdef : lens.getD s 0 = x at *
  obtain ⟨m, hm⟩ : ∃ m, x.toNat = m + 1 := Nat.exists_eq_succ_of_ne_zero fun e => h0 (BitVec.eq_of_toNat_eq e)
  have hm15 : m < 15 := by have := x.isLt; omega
  have hcode : canonicalCode lens s = 2 * (buildTable lens).used m + lenCount (lens.take s) (m + 1) := by
    simp only [canonicalCode, hxdef, hm, firstCode_eq hlens (Nat.le_of_lt hm15)]
  have hi : lenCount (lens.take s) (m + 1) < (buildTable lens).countOf (m + 1) :=
    (lenCount_take_lt hx hm).trans_eq (buildTable_countOf hlens hm15).symm
  have hsym : (BitVec.ofNat 9 s).toNat = s :=
    Nat.mod_eq_of_lt (Nat.lt_trans (Nat.lt_of_lt_of_le hs hlens) (by decide))
  rw [hm, hcode, (buildTable_readable hlens hleft).decodeCode_eq hm15 hi (buildTable_place hlens hx hm), hsym]

end Sys2Proof
end

section
/-! PROOF. A stream row's bits, read back in the row's context: fields, codes by their place in SYMS, extra bits (R59,
R60, R81 to R92). -/

namespace Sys2Proof

/-! ## Fields -/

theorem bitsVal_natBits (n v : Nat) : bitsVal (natBits n v) = v % 2 ^ n := by
  induction n generalizing v with
  | zero => simp [natBits, bitsVal, Nat.mod_one]
  | succ n ih =>
    have hbit : (v % 2 == 1).toNat = v % 2 := by
      rcases Nat.mod_two_eq_zero_or_one v with e | e <;> rw [e] <;> rfl
    rw [natBits, bitsVal, ih, hbit, Nat.pow_succ', Nat.mod_mul]

/-- A field is read as it was written (R59). -/
theorem readField_fieldBits {n : Nat} (v : BitVec n) (rest : List Bool) :
    readField n (fieldBits v ++ rest) = .ok (v, rest) := by
  have hlen : (fieldBits v).length = n := Machine.natBits_length n v.toNat
  rw [readField, if_neg (by rw [List.length_append]; omega), List.take_left' hlen, List.drop_left' hlen, fieldBits,
    bitsVal_natBits, Nat.mod_eq_of_lt v.isLt, BitVec.ofNat_toNat, BitVec.setWidth_eq]

/-- A context that reads a field reads back the row of the field's value. -/
theorem decode_fieldBits {c : Ctx} {n : Nat} (row : BitVec n → Instr) (hc : ∀ bits, decode c bits = fieldTo n row bits)
    (v : BitVec n) (rest : List Bool) : decode c (fieldBits v ++ rest) = .ok (row v, rest) := by
  rw [hc, fieldTo, readField_fieldBits]

/-- Extra bits are read as they were written, where the table gives their number and the row takes their value (R91,
R92). -/
theorem extraTo_fieldBits {tab : List (Nat × Nat)} {row : Nat → Nat → Option Instr} {i base k : Nat} {e : BitVec k}
    {ins : Instr} (htab : tab[i]? = some (base, k)) (hrow : row i e.toNat = some ins) (rest : List Bool) :
    extraTo tab row i (fieldBits e ++ rest) = .ok (ins, rest) := by
  simp only [extraTo, htab, readField_fieldBits, hrow]

/-- A block header's bits are BFINAL, then BTYPE with its low bit first (R82). -/
theorem decode_bhdr (f b c : Bool) (rest : List Bool) :
    decode .bhdr ([f, b, c] ++ rest) = .ok (bhdrRow (BitVec.ofNat 3 (bitsVal [f, b, c])), rest) := rfl

/-! ## Codes -/

theorem symPlace_some {s k : Nat} {syms : List (BitVec 9)} (h : symPlace s syms = some k) :
    ∃ x, syms[k]? = some x ∧ x.toNat = s := by
  induction syms generalizing k with
  | nil => cases h
  | cons y ys ih =>
    rw [symPlace] at h
    split_ifs at h with hy
    · cases h
      exact ⟨y, rfl, hy⟩
    · obtain ⟨j, hj, rfl⟩ := Option.map_eq_some_iff.1 h
      exact ih hj

/-- The code that the encoder gives a place: the place's number among the codes of its length, after the first one
(R121). -/
theorem codeAt_some {t : Table} {j k l v : Nat} (hj : j ≤ t.count.length)
    (h : codeAt ((t.count.map BitVec.toNat).drop j) (j + 1) (2 * t.used j) k = some (l, v)) :
    ∃ m i, l = m + 1 ∧ v = 2 * t.used m + i ∧ m < t.count.length ∧ i < t.countOf (m + 1) ∧
      t.upTo j + k = t.upTo m + i := by
  induction hd : t.count.length - j generalizing j k with
  | zero =>
    rw [List.drop_eq_nil_of_le (by rw [List.length_map]; omega)] at h
    cases h
  | succ d ih =>
    rw [Table.counts_drop (by omega), codeAt] at h
    split_ifs at h with hk
    · cases h
      exact ⟨j, k, rfl, rfl, by omega, hk, rfl⟩
    · rw [show (2 * t.used j + t.countOf (j + 1)) * 2 = 2 * t.used (j + 1) by rw [Table.used]; omega] at h
      obtain ⟨m, i, hl, hv, hm, hi, hplace⟩ := ih (by omega) h (by omega)
      refine ⟨m, i, hl, hv, hm, hi, ?_⟩
      rw [t.upTo_succ] at hplace
      omega

/-- A symbol that has a code is read back from it (R60, R125). -/
theorem Table.Readable.decodeCode_symBits {t : Table} (ht : t.Readable) {s : Nat} (h : symBits t s ≠ [])
    (rest : List Bool) : decodeCode t Hc.zero (symBits t s ++ rest) = .ok (s, rest) := by
  unfold symBits at h ⊢
  match hk : symPlace s t.syms with
  | none => simp [hk] at h
  | some k =>
    match hc : codeAt (t.count.map BitVec.toNat) 1 0 k with
    | none => simp [hk, hc] at h
    | some (l, v) =>
      obtain ⟨x, hx, rfl⟩ := symPlace_some hk
      obtain ⟨m, i, rfl, rfl, hm, hi, hplace⟩ := codeAt_some (t := t) (j := 0) (Nat.zero_le _) hc
      rw [ht.formed.lengths] at hm
      rw [show k = t.upTo m + i by rw [← hplace]; exact (Nat.zero_add k).symm] at hx
      simp only [hc]
      exact ht.decodeCode_eq hm hi hx rest

theorem Table.codes.need {t : Table} (ht : t.codes) : (if emptyStop t Hc.zero then 0 else 1) = 1 := by
  simp [emptyStop, ht.notEmpty]

/-- A symbol's row is read back from the symbol's code. -/
theorem Table.codes.symTo_symBits {t : Table} (ht : t.codes) {row : Nat → Option Instr} {s : Nat} {i : Instr}
    (hrow : row s = some i) (h : (if emptyStop t Hc.zero then 0 else 1) = 0 ∨ symBits t s ≠ []) (rest : List Bool) :
    symTo row (decodeCode t Hc.zero (symBits t s ++ rest)) = .ok (i, rest) := by
  rw [ht.need] at h
  rw [ht.readable.decodeCode_symBits (h.resolve_left one_ne_zero), symTo]
  simp only [hrow]

/-! ## Symbols of two steps -/

/-- A repeat symbol's two steps are read back (R89). -/
theorem decode_repeat {t : Table} (ht : t.codes) {k : Nat} {row : SymStep k → Instr} {extra : Ctx} {sym : Nat}
    (hrow : clRow sym = some (row .code))
    (hextra : ∀ bits, decode extra bits = fieldTo k (fun e => row (.extra e)) bits) {rest : List Bool} {f : SymStep k}
    (h : (stepCtx (.clSym t Hc.zero) extra f).need = 0 ∨ stepBits (symBits t sym) f ≠ []) :
    decode (stepCtx (.clSym t Hc.zero) extra f) (stepBits (symBits t sym) f ++ rest) = .ok (row f, rest) := by
  cases f with
  | code => exact ht.symTo_symBits hrow h rest
  | extra e => exact decode_fieldBits _ hextra e rest

/-- A length symbol's two steps are read back, with its numbers in the tables of the encoding (R87, R91). -/
theorem decode_length {t : Table} (ht : t.codes) {k base : Nat} {row : SymStep k → Instr} {sym : Nat} {x : BitVec 9}
    (hrow : llRow sym = some (row .code)) (htab : lenTable[lenIndex x]? = some (base, k))
    (hextra : ∀ e, lenExtraRow (lenIndex x) e = some (row (.extra (BitVec.ofNat k e)))) {rest : List Bool}
    {f : SymStep k}
    (h : (stepCtx (.llSym t Hc.zero) (.lenExtra x) f).need = 0 ∨ stepBits (symBits t sym) f ≠ []) :
    decode (stepCtx (.llSym t Hc.zero) (.lenExtra x) f) (stepBits (symBits t sym) f ++ rest) = .ok (row f, rest) := by
  cases f with
  | code => exact ht.symTo_symBits hrow h rest
  | extra e => exact extraTo_fieldBits htab (by simpa using hextra e.toNat) rest

/-- A distance symbol's two steps are read back, with its numbers in the tables of the encoding (R88, R92). -/
theorem decode_distance {t : Table} (ht : t.codes) {k base : Nat} {row : SymStep k → Instr} {sym : Nat} {x : BitVec 5}
    (hrow : distRow sym = some (row .code)) (htab : distTable[x.toNat]? = some (base, k))
    (hextra : ∀ e, distExtraRow x.toNat e = some (row (.extra (BitVec.ofNat k e)))) {rest : List Bool} {f : SymStep k}
    (h : (stepCtx (.dSym t Hc.zero) (.distExtra x) f).need = 0 ∨ stepBits (symBits t sym) f ≠ []) :
    decode (stepCtx (.dSym t Hc.zero) (.distExtra x) f) (stepBits (symBits t sym) f ++ rest) = .ok (row f, rest) := by
  cases f with
  | code => exact ht.symTo_symBits hrow h rest
  | extra e => exact extraTo_fieldBits htab (by simpa using hextra e.toNat) rest

/-! ## Rows of symbols with an operand -/

theorem clRow_len (s : BitVec 4) : clRow s.toNat = some (.clLen s) := by
  have := s.isLt
  rw [clRow, if_pos (by omega), BitVec.ofNat_toNat, BitVec.setWidth_eq]

theorem llRow_literal (b : Byte) : llRow b.toNat = some (.lit (.code b)) := by
  have := b.isLt
  rw [llRow, if_pos (by omega), BitVec.ofNat_toNat, BitVec.setWidth_eq]

theorem llRow_reserved : ∀ x : BitVec 1, llRow (286 + x.toNat) = some (.llReserved x) := by decide

theorem distRow_reserved : ∀ x : BitVec 1, distRow (30 + x.toNat) = some (.dReserved x) := by decide

/-- Settles O2: a row's bits are a field, a code of a readable table, extra bits, or none. -/
theorem streamDecodeInvertsEncode : Obligations.StreamDecodeInvertsEncode := by
  intro ts i c rest hcl hll hd _ hc hbits
  cases i with
  | zhdrCmf v | zhdrFlg v | storedByte v | trailer v =>
    cases hc
    exact decode_fieldBits _ (fun _ => rfl) v rest
  | blockStored f | blockFixed f | blockDynamic f | blockReserved f =>
    cases hc
    refine (decode_bhdr f _ _ rest).trans ?_
    cases f <;> rfl
  | storedHdr f =>
    cases f with
    | len v =>
      cases hc
      exact decode_fieldBits (fun v => .storedHdr (.len v)) (fun _ => rfl) v rest
    | nlen v =>
      cases hc
      exact decode_fieldBits (fun v => .storedHdr (.nlen v)) (fun _ => rfl) v rest
  | dynHdr f =>
    cases f with
    | hlit v =>
      cases hc
      exact decode_fieldBits (fun v => .dynHdr (.hlit v)) (fun _ => rfl) v rest
    | hdist v =>
      cases hc
      exact decode_fieldBits (fun v => .dynHdr (.hdist v)) (fun _ => rfl) v rest
    | hclen v =>
      cases hc
      exact decode_fieldBits (fun v => .dynHdr (.hclen v)) (fun _ => rfl) v rest
  | dynClen f =>
    cases f with
    | field v =>
      cases hc
      exact decode_fieldBits (fun v => .dynClen (.field v)) (fun _ => rfl) v rest
    | build =>
      cases hc
      rfl
  | dynBuild | matchCopy len dist =>
    cases hc
    rfl
  | clLen s =>
    cases hc
    exact hcl.symTo_symBits (clRow_len s) hbits rest
  | clRep16 f | clZero17 f | clZero18 f =>
    cases hc
    exact decode_repeat hcl rfl (fun _ => rfl) hbits
  | lit f =>
    cases f with
    | code b =>
      cases hc
      exact hll.symTo_symBits (llRow_literal b) hbits rest
    | emit =>
      cases hc
      rfl
  | eob =>
    cases hc
    exact hll.symTo_symBits rfl hbits rest
  | len257 f | len258 f | len259 f | len260 f | len261 f | len262 f | len263 f | len264 f | len265 f | len266 f
  | len267 f | len268 f | len269 f | len270 f | len271 f | len272 f | len273 f | len274 f | len275 f | len276 f
  | len277 f | len278 f | len279 f | len280 f | len281 f | len282 f | len283 f | len284 f | len285 f =>
    cases hc
    exact decode_length hll rfl rfl (fun _ => rfl) hbits
  | llReserved x =>
    cases hc
    exact hll.symTo_symBits (llRow_reserved x) hbits rest
  | dist0 f | dist1 f | dist2 f | dist3 f | dist4 f | dist5 f | dist6 f | dist7 f | dist8 f | dist9 f | dist10 f
  | dist11 f | dist12 f | dist13 f | dist14 f | dist15 f | dist16 f | dist17 f | dist18 f | dist19 f | dist20 f
  | dist21 f | dist22 f | dist23 f | dist24 f | dist25 f | dist26 f | dist27 f | dist28 f | dist29 f =>
    cases hc
    exact decode_distance hd rfl rfl (fun _ => rfl) hbits
  | dReserved x =>
    cases hc
    exact hd.symTo_symBits (distRow_reserved x) hbits rest
  | start | eoi | abort | push | pop | wrConfig | wrOutLimit | wrCrcExpect | rdReg | crcInit | crcByte | rdCrcValue
  | rdCrcStatus => cases hc

/-- Settles O1: the words are closed terms, and the decoder evaluates each to its row. -/
theorem specWordsDecode : Obligations.SpecWordsDecode :=
  ⟨rfl, rfl, rfl, rfl, rfl, rfl, rfl, rfl, rfl, rfl, rfl, rfl, rfl, rfl, rfl, rfl, rfl, rfl, rfl, rfl, rfl⟩

end Sys2Proof
end

section
/-! PROOF. The fill step, the block headers and the rows that emit, as equations (R61, R63, R117, R136, R143, R218), and
the overlap law by induction on the bytes still to copy (R144). -/

namespace Sys2Proof.Machine

/-! ## The fill -/

/-- Settles O11: INF's turn is the fill of R61, taken apart by what IN_FIFO, IN_COUNT and EOI_SEEN hold. -/
theorem fillStep : Obligations.FillStep := by
  intro s c ha hr hc hn
  have hstep : step s = .next s.fill := (step_inf_nil ha).trans (infStep_fill hr hc hn)
  rw [hstep, State.took_zero]
  refine ⟨fun b rest hf hcount => ?_, fun hf hcount => ?_, fun hf he => ?_, fun hf he => ?_⟩
  · simp only [State.fill, hf, if_neg hcount]
    rfl
  · obtain ⟨b, rest, hf⟩ := List.exists_cons_of_ne_nil hf
    simp only [State.fill, hf, if_pos hcount]
    rfl
  · simp only [State.fill, hf, he]
    rfl
  · simp only [State.fill, hf, he]
    rfl

/-! ## Block headers -/

theorem fixedLL_eq_buildTable : fixedLL = buildTable fixedLLLens := by decide +kernel

theorem fixedD_eq_buildTable : fixedD = buildTable fixedDLens := by decide +kernel

/-- Settles O15: each type's meaning on a RUNNING state, with the fixed tables as Build gives them. -/
theorem blockHeaderByType : Obligations.BlockHeaderByType := by
  rintro f s ⟨hr, _⟩
  rw [← fixedLL_eq_buildTable, ← fixedD_eq_buildTable]
  rw [exec_blockStored, exec_blockFixed, exec_blockDynamic, exec_blockReserved]
  exact ⟨State.inf_running _ hr, State.inf_running _ hr, State.inf_running _ hr, State.inf_running _ hr⟩

/-! ## Emits -/

theorem State.emit_atLimit {s : State} (b : Byte) (k : State → State) (h : s.atLimit) : s.emit b k = s.stopped 7 23 :=
  if_pos h

theorem State.emit_wraps {s : State} (b : Byte) (k : State → State) (h : ¬ s.atLimit) (hc : s.out.count = 0xFFFFFFFF) :
    s.emit b k = s.stopped 7 24 :=
  (if_neg h).trans (if_pos hc)

/-- Without space, a row that emits only waits (R218). -/
theorem EmitRow.exec_full {i : Instr} (hi : EmitRow i) {s : State} (hr : s.top = .running) (hc : ¬ s.canEmit) :
    exec i s = .next { s with heldOut := true } := by
  cases hi with
  | storedByte b =>
    rw [exec_storedByte]
    exact State.infEmit_full _ hr hc
  | litEmit =>
    rw [exec_lit, execLit]
    exact State.infEmit_full _ hr hc
  | matchCopy len dist =>
    rw [exec_matchCopy]
    exact State.infEmit_full _ hr hc

section
variable {s : State} (hr : s.top = .running) (hc : s.canEmit)
include hr hc

/-- With space, a stored byte's bits are taken and the byte is emitted (R120). -/
theorem exec_storedByte_space (b : Byte) : ∃ k, exec (.storedByte b) s = .next ((s.took 8).emit b k) := by
  rw [exec_storedByte]
  exact ⟨_, State.infEmit_space _ hr hc⟩

/-- With space, LIT_BYTE is emitted (R138). -/
theorem exec_litEmit_space : ∃ k, exec (.lit .emit) s = .next ((s.took 0).emit s.copy.litByte k) := by
  rw [exec_lit, execLit, State.took_zero]
  exact ⟨_, State.infEmit_space _ hr hc⟩

/-- What follows a copied byte: the count, and SYM after the last one (R143). -/
def State.copied (len : BitVec 9) (s : State) : State :=
  let t : State := { s with copy := { s.copy with len := BitVec.ofNat 9 (len.toNat - 1) } }
  if len.toNat - 1 = 0 then t.into .sym else t

/-- With space, a byte that WinRead answers is emitted (R68, R143). -/
theorem exec_matchCopy_read (len : BitVec 9) {dist : BitVec 16} {b : Byte} (h : winRead s.out dist.toNat = .ok b) :
    exec (.matchCopy len dist) s = .next ((s.took 0).emit b (State.copied len)) := by
  rw [exec_matchCopy, execMatchCopy, State.infEmit_space _ hr hc, State.unhold_out, h, State.took_zero]
  rfl

/-- With space, a fault of WinRead stops the model (R68). -/
theorem exec_matchCopy_fault (len : BitVec 9) {dist : BitVec 16} {f : Fault} (h : winRead s.out dist.toNat = .error f) :
    exec (.matchCopy len dist) s = .fault f := by
  rw [exec_matchCopy, execMatchCopy, State.infEmit_space _ hr hc, State.unhold_out, h]

/-- A copied byte that raises nothing: emitted, and counted off (R143). -/
theorem exec_matchCopy_emitted (hm : s.mayEmit) (len : BitVec 9) {dist : BitVec 16} {b : Byte}
    (h : winRead s.out dist.toNat = .ok b) :
    exec (.matchCopy len dist) s = .next (State.copied len { s.took 0 with out := s.out.emitted b }) := by
  rw [exec_matchCopy_read hr hc len h, State.emit_mayEmit (s := s.took 0) b _ hm]
  rfl

end

/-- Settles O18: WinRead answers the cell's byte, which is emitted. -/
theorem copyEmitsWindowByte : Obligations.CopyEmitsWindowByte := by
  intro len dist s b hr hc hm hlen hd1 hd2 hread
  refine ⟨s.out.emitted b, s.out.emitted_emits b hm.2, ?_⟩
  have hcount : BitVec.ofNat 9 (len.toNat - 1) = len - 1 := by
    refine BitVec.eq_of_toNat_eq ?_
    have := len.isLt
    rw [BitVec.toNat_sub, BitVec.toNat_ofNat, show (1 : BitVec 9).toNat = 1 from rfl]
    omega
  have hlast : len.toNat - 1 = 0 ↔ len = 1 := by
    rw [← BitVec.toNat_inj, show (1 : BitVec 9).toNat = 1 from rfl]
    omega
  rw [exec_matchCopy_emitted hr hc hm len (winRead_eq hd1 hd2 hread)]
  simp only [State.copied, hcount, hlast]
  rfl

/-- Settles O19: a full OUT_FIFO is met first, then a fault of the window, then OUT_LIMIT, then COUNT_WRAP. -/
theorem emitStepsStopOrWait : Obligations.EmitStepsStopOrWait := by
  refine ⟨fun b len dist s hr => ⟨fun hfull => ?_, fun hc hl => ?_, fun hc hl hw => ?_, fun hc hd1 hd2 hread => ?_⟩,
    fun len dist s hr hc => ⟨fun hd => ?_, fun hd1 hd2 hread => ?_⟩⟩
  · exact ⟨fun _ => (EmitRow.storedByte b).exec_full hr hfull, EmitRow.litEmit.exec_full hr hfull,
      (EmitRow.matchCopy len dist).exec_full hr hfull⟩
  · obtain ⟨k, hk⟩ := exec_storedByte_space hr hc b
    obtain ⟨k', hk'⟩ := exec_litEmit_space hr hc
    refine ⟨fun _ => ?_, ?_⟩
    · rw [hk, State.emit_atLimit (s := s.took 8) b k hl]
    · rw [hk', State.emit_atLimit (s := s.took 0) _ k' hl]
  · obtain ⟨k, hk⟩ := exec_storedByte_space hr hc b
    obtain ⟨k', hk'⟩ := exec_litEmit_space hr hc
    refine ⟨fun _ => ?_, ?_⟩
    · rw [hk, State.emit_wraps (s := s.took 8) b k hl hw]
    · rw [hk', State.emit_wraps (s := s.took 0) _ k' hl hw]
  · obtain ⟨x, hx⟩ := Option.isSome_iff_exists.1 hread
    rw [exec_matchCopy_read hr hc len (winRead_eq hd1 hd2 hx)]
    exact ⟨fun hl => congrArg _ (State.emit_atLimit (s := s.took 0) x _ hl),
      fun hl hw => congrArg _ (State.emit_wraps (s := s.took 0) x _ hl hw)⟩
  · refine exec_matchCopy_fault hr hc len (if_pos (hd.imp_left fun h => ?_))
    rw [h]
    rfl
  · refine exec_matchCopy_fault hr hc len ?_
    rw [winRead, if_neg (by omega), hread]

/-! ## The overlap law -/

/-- INF is copying from distance D, with nothing in its way but OUT_FIFO's depth, and has emitted the bytes bs. -/
structure State.Copying (s : State) (bs : List Byte) (D : Nat) : Prop where
  top : s.top = .running
  phase : s.phase = .copy
  agenda : s.agenda = []
  dist : s.copy.dist.toNat = D
  near : 1 ≤ D
  past : D ≤ bs.length
  window : D ≤ 32768
  holds : s.out.holds bs
  lim : s.ctl.lim = 0

section
variable {s : State} {bs : List Byte} {D : Nat} (h : s.Copying bs D)
include h

theorem State.Copying.mayEmit (hcount : bs.length + 1 < 2 ^ 32) : s.mayEmit := by
  refine ⟨fun hl => hl.1 h.lim, fun e => ?_⟩
  have hc := h.holds.count
  rw [e] at hc
  have : bs.length = 4294967295 := hc.symm
  omega

/-- WinRead answers the byte emitted D bytes ago (R68, R145). -/
theorem State.Copying.reads : ∃ b, bs[bs.length - D]? = some b ∧ winRead s.out s.copy.dist.toNat = .ok b := by
  have hpast := h.past
  have hnear := h.near
  have hreach : D ≤ min bs.length 32768 := le_min hpast h.window
  obtain ⟨b, hb⟩ : ∃ b, bs[bs.length - D]? = some b := ⟨_, List.getElem?_eq_getElem (by omega)⟩
  refine ⟨b, hb, ?_⟩
  rw [h.dist]
  exact winRead_eq hnear (hreach.trans_eq h.holds.hist.symm) ((h.holds.cells D hnear hreach).trans hb)

theorem State.Copying.step_eq (hspace : s.canEmit) (hcount : bs.length + 1 < 2 ^ 32) {b : Byte}
    (hread : winRead s.out s.copy.dist.toNat = .ok b) :
    step s = .next (State.copied s.copy.len { s.took 0 with out := s.out.emitted b }) := by
  have hctx : s.ctx = some (.copy s.copy.len s.copy.dist) := by simp [State.ctx, h.phase]
  rw [step_inf_nil h.agenda, infStep_decode h.top hctx (Nat.zero_le _),
    decodeAction_row (i := .matchCopy s.copy.len s.copy.dist) rfl,
    exec_matchCopy_emitted h.top hspace (h.mayEmit hcount) _ hread]

/-- A copy's step emits the byte D before it, and goes on copying with one byte less, or to SYM after the last one (R143). -/
theorem State.Copying.step {n : Nat} (hlen : s.copy.len.toNat = n + 1) (hspace : s.canEmit)
    (hcount : bs.length + 1 < 2 ^ 32) :
    ∃ b t, bs[bs.length - D]? = some b ∧ Machine.step s = .next t ∧ t.out.fifo = s.out.fifo ++ [b] ∧
      t.out.holds (bs ++ [b]) ∧ t.cfg = s.cfg ∧ t.copy.len.toNat = n ∧
      (n = 0 → t.phase = .sym ∧ t.top = .running) ∧ (n ≠ 0 → t.Copying (bs ++ [b]) D) := by
  obtain ⟨b, hb, hread⟩ := h.reads
  have hholds := h.holds.emitted (h.mayEmit hcount).2 b
  have hn : (BitVec.ofNat 9 n).toNat = n := by
    have := s.copy.len.isLt
    rw [BitVec.toNat_ofNat]
    omega
  refine ⟨b, _, hb, h.step_eq hspace hcount hread, ?_⟩
  rw [State.copied, hlen, Nat.add_sub_cancel]
  split
  · exact ⟨rfl, hholds, rfl, hn, fun _ => ⟨rfl, h.top⟩, fun hne => absurd ‹n = 0› hne⟩
  · have hpast : D ≤ (bs ++ [b]).length := Nat.le_trans h.past (by simp)
    refine ⟨rfl, hholds, rfl, hn, fun h0 => absurd h0 ‹_›, fun _ => ?_⟩
    exact ⟨h.top, h.phase, h.agenda, h.dist, h.near, hpast, h.window, hholds, h.lim⟩

end

theorem run_succ (M : Host.Core) {s t : M.State} (h : M.step s = .next t) (n : Nat) : M.run (n + 1) s = M.run n t := by
  rw [Host.Core.run, h]

/-- A copy of n + 1 bytes runs to SYM, and its bytes repeat with period D (R144). -/
theorem State.Copying.run {D : Nat} (n : Nat) {s : State} {bs : List Byte} (h : s.Copying bs D)
    (hlen : s.copy.len.toNat = n + 1) (hspace : s.out.fifo.length + (n + 1) ≤ s.cfg.outDepth)
    (hcount : bs.length + (n + 1) < 2 ^ 32) :
    ∃ (t : State) (cs : List Byte), Host.Core.run Sys2Proof.core (n + 1) s = .next t ∧ t.phase = .sym ∧
      t.top = .running ∧ cs.length = n + 1 ∧ t.out.fifo = s.out.fifo ++ cs ∧ t.out.holds (bs ++ cs) ∧
      ∀ k, k < n + 1 → (bs ++ cs)[bs.length + k]? = (bs ++ cs)[bs.length + k - D]? := by
  have hpast := h.past
  have hnear := h.near
  obtain ⟨b, t, hb, hstep, hfifo, hholds, hcfg, hleft, hlast, hmore⟩ :=
    h.step hlen (Nat.lt_of_lt_of_le (Nat.lt_add_of_pos_right n.succ_pos) hspace) (by omega)
  have hfirst (cs : List Byte) : (bs ++ b :: cs)[bs.length]? = (bs ++ b :: cs)[bs.length - D]? := by
    rw [List.getElem?_append_right (Nat.le_refl _), List.getElem?_append_left (by omega), hb, Nat.sub_self]
    rfl
  rw [run_succ Sys2Proof.core hstep]
  match n with
  | 0 =>
    obtain ⟨hp, hr⟩ := hlast rfl
    refine ⟨t, [b], rfl, hp, hr, rfl, hfifo, hholds, fun k hk => ?_⟩
    obtain rfl : k = 0 := by omega
    exact hfirst []
  | n + 1 =>
    have hlen1 : (bs ++ [b]).length = bs.length + 1 := List.length_append
    have hspace1 : t.out.fifo.length + (n + 1) ≤ t.cfg.outDepth := by
      rw [hfifo, hcfg, List.length_append, List.length_singleton]
      omega
    obtain ⟨u, cs, hrun, hp, hr, hcs, hout, hh, hback⟩ :=
      (hmore n.succ_ne_zero).run n hleft hspace1 (by omega)
    rw [List.append_assoc, List.singleton_append] at hh hback
    refine ⟨u, b :: cs, hrun, hp, hr, congrArg Nat.succ hcs, ?_, hh, fun k hk => ?_⟩
    · rw [hout, hfifo, List.append_assoc, List.singleton_append]
    match k with
    | 0 => exact hfirst cs
    | k + 1 =>
      have := hback k (by omega)
      rwa [hlen1, Nat.add_right_comm, Nat.add_assoc] at this

/-- Settles O38: a state with the statement's premises is copying, and the copy runs to its end. -/
theorem overlappingCopy : Obligations.OverlappingCopy := by
  intro s bs L D hr hp ha hL hD hL1 hD1 hpast hwindow hholds hspace hcount hlim
  obtain ⟨n, rfl⟩ := Nat.exists_eq_add_of_le' hL1
  exact State.Copying.run n ⟨hr, hp, ha, hD, hD1, hpast, hwindow, hholds, hlim⟩ hL hspace hcount

end Sys2Proof.Machine
end

section
/-! PROOF. What a turn does to the window's cells, and where STORED_HDR and TRAILER are entered (R63, R64, R66). -/

namespace Sys2Proof.Machine

/-! ## The window -/

/-- No host row writes a cell: START and ABORT clear the window's pointers alone (R66, R101). -/
theorem HostEffect.win {s t : State} (h : HostEffect s t) : t.out.win = s.out.win := by
  cases h with
  | start | abort => rfl
  | data h => cases h <;> rfl

/-- Settles O54: host rows write no cell, and INF's turn writes WP's with an emit and none without. -/
theorem windowIsPrivate : Obligations.WindowIsPrivate := by
  refine ⟨fun s t a rest ha h => ?_, fun s t x h hx => ?_⟩
  · match hd : decodeHost s.cfg.blockBase a with
    | .error e => simp [step_host ha, hostAction, hd, Action.out] at h
    | .ok is =>
      rw [step_host_rows ha hd] at h
      exact runAll_induct (R := fun u v => v.out.win = u.out.win) (fun _ => rfl) (fun _ _ _ h1 h2 => h2.trans h1) is
        { s with agenda := rest } t (fun i hi u v huv => ((hostRow_of_decodeHost hd i hi).effect huv).win) h
  · rcases (infStep_emission h).out with e | ⟨_, hc, b, e⟩ <;> rw [e]
    exact (s.out.emitted_emits b hc).others x hx

/-! ## The aligned phases -/

/-- t is still in phase p, or in no phase that reads aligned fields, or at a byte boundary (R64). -/
def EntersAligned (p : Phase) (t : State) : Prop :=
  t.phase = p ∨ (t.phase ≠ .storedHdr ∧ t.phase ≠ .trailer) ∨ t.inp.cnt.toNat % 8 = 0

theorem EntersAligned.stays {p : Phase} {t : State} (h : t.phase = p) : EntersAligned p t := .inl h

theorem EntersAligned.goto (p : Phase) {q : Phase} (s : State) (h : q ≠ .storedHdr ∧ q ≠ .trailer) :
    EntersAligned p (s.goto q) := .inr (.inl h)

/-- AlignToByte leaves whole bytes (R63). -/
theorem EntersAligned.alignToByte (p q : Phase) (s : State) : EntersAligned p (s.alignToByte.goto q) := by
  refine .inr (.inr ?_)
  rw [State.goto_inp, State.alignToByte_inp, dropBits_cnt]
  omega

theorem EntersAligned.blockEnd (p : Phase) (s : State) : EntersAligned p s.blockEnd := by
  rcases s.blockEnd_cases with ⟨_, e⟩ | ⟨_, e⟩ <;> rw [e]
  · exact .alignToByte p .trailer s
  · exact .goto p s (by decide)

theorem EntersAligned.putLens (s : State) (n : Nat) (v : BitVec 4) : EntersAligned s.phase (s.putLens n v) := by
  unfold State.putLens
  extract_lets
  split
  · exact .goto _ _ (by decide)
  · exact .stays rfl

theorem EntersAligned.repeatLens (s : State) (n : Nat) (v : BitVec 4) : EntersAligned s.phase (s.repeatLens n v) := by
  unfold State.repeatLens
  split
  · exact .stays rfl
  · exact .putLens { s with blk := _ } n v

theorem EntersAligned.startCopy (s : State) (dist : Nat) : EntersAligned s.phase (startCopy s dist) := by
  unfold Machine.startCopy
  split
  · exact .stays rfl
  · exact .goto _ _ (by decide)

theorem EntersAligned.dynCounts (s : State) : EntersAligned s.phase (dynCounts s) := by
  unfold Machine.dynCounts
  split
  · exact .stays rfl
  · exact .goto _ _ (by decide)

theorem EntersAligned.trailerCheck (s : State) : EntersAligned s.phase (trailerCheck s) := by
  unfold Machine.trailerCheck
  split <;> exact .stays rfl

section
variable {k : State → State} (hk : ∀ u : State, EntersAligned u.phase (k u))
include hk

theorem EntersAligned.zlibChecks (s : State) : EntersAligned s.phase (zlibChecks s k) := by
  unfold Machine.zlibChecks
  split_ifs
  · exact .stays rfl
  · exact .stays rfl
  · exact .stays rfl
  · exact .stays rfl
  · exact hk s

theorem EntersAligned.emit (s : State) (b : Byte) : EntersAligned s.phase (s.emit b k) := by
  rcases s.emit_cases b k with ⟨_, e⟩ | ⟨_, _, e⟩ | ⟨_, e⟩ <;> rw [e]
  · exact .stays rfl
  · exact .stays rfl
  · exact hk { s with out := _ }

theorem EntersAligned.validate (s : State) (t : Table) (o i : ErrCause) :
    EntersAligned s.phase (s.validate t o i k) := by
  rcases s.validate_cases t o i k with ⟨_, e⟩ | ⟨_, e⟩ | ⟨_, _, e⟩ <;> rw [e]
  · exact .stays rfl
  · exact hk s
  · exact .stays rfl

theorem EntersAligned.buildD (s : State) : EntersAligned s.phase (s.buildD k) := by
  rcases s.buildD_cases k with ⟨_, e⟩ | ⟨_, e⟩ | ⟨_, _, ⟨_, e⟩ | ⟨_, _, e⟩⟩ <;> rw [e]
  · exact .stays rfl
  · exact hk { s with tabs := _ }
  · exact .stays rfl
  · exact hk { s with tabs := _ }

end

theorem EntersAligned.of_inf {s t : State} {g : State → State} (h : s.inf (fun u => .next (g u)) = .next t)
    (hg : ∀ u : State, EntersAligned u.phase (g u)) : EntersAligned s.phase t := by
  rcases State.inf_cases h with ⟨_, h⟩ | ⟨_, rfl⟩
  · cases h
    exact hg s.unhold
  · exact .stays rfl

theorem EntersAligned.of_infEmit {s t : State} {k : State → Out} (h : s.infEmit k = .next t)
    (hk : k s.unhold = .next t → EntersAligned s.phase t) : EntersAligned s.phase t := by
  rcases State.infEmit_cases h with ⟨_, _, h⟩ | ⟨_, _, rfl⟩ | ⟨_, rfl⟩
  · exact hk h
  · exact .stays rfl
  · exact .stays rfl

theorem InfMeaning.entersAligned {m : State → Out} (hm : InfMeaning m) {s t : State} (h : m s = .next t) :
    EntersAligned s.phase t := by
  cases hm with
  | zhdrCmf v | blockReserved f | llReserved x | dReserved x => exact .of_inf h fun _ => .stays rfl
  | zhdrFlg v =>
    exact .of_inf h fun u => EntersAligned.zlibChecks (fun w => .goto _ w (by decide)) { u.dropBits 8 with zl := _ }
  | blockStored f => exact .of_inf h fun u => .alignToByte _ _ _
  | blockFixed f | blockDynamic f => exact .of_inf h fun u => .goto _ _ (by decide)
  | storedHdr f =>
    cases f with
    | len v => exact .of_inf h fun _ => .stays rfl
    | nlen v =>
      refine .of_inf h fun u => ?_
      split_ifs
      · exact .stays rfl
      · exact .blockEnd _ _
      · exact .goto _ _ (by decide)
  | dynHdr f =>
    cases f with
    | hlit v | hdist v => exact .of_inf h fun _ => .stays rfl
    | hclen v => exact .of_inf h fun u => .dynCounts { u.dropBits 4 with blk := _ }
  | dynClen f =>
    cases f with
    | field v => exact .of_inf h fun _ => .stays rfl
    | build =>
      refine .of_inf h fun u => EntersAligned.validate (fun w => ?_) { u with tabs := _ } _ _ _
      exact .goto _ _ (by decide)
  | clLen l => exact .of_inf h fun u => .putLens u.endCode 1 l
  | clRep16 f =>
    cases f with
    | code =>
      refine .of_inf h fun u => ?_
      split <;> exact .stays rfl
    | extra e => exact .of_inf h fun u => .repeatLens (u.dropBits 2) _ _
  | clZero17 f =>
    cases f with
    | code => exact .of_inf h fun _ => .stays rfl
    | extra e => exact .of_inf h fun u => .repeatLens (u.dropBits 3) _ _
  | clZero18 f =>
    cases f with
    | code => exact .of_inf h fun _ => .stays rfl
    | extra e => exact .of_inf h fun u => .repeatLens (u.dropBits 7) _ _
  | dynBuild =>
    refine .of_inf h fun u => ?_
    split
    · exact .stays rfl
    · refine EntersAligned.validate (fun v => EntersAligned.buildD (fun w => ?_) v) { u with tabs := _ } _ _ _
      exact .goto _ _ (by decide)
  | litCode b =>
    unfold execLit at h
    exact .of_inf h fun _ => .goto _ _ (by decide)
  | eob => exact .of_inf h fun u => .blockEnd _ _
  | length sym base f =>
    cases f with
    | code | extra e => exact .of_inf h fun _ => .goto _ _ (by decide)
  | distance sym base f =>
    cases f with
    | code => exact .of_inf h fun _ => .goto _ _ (by decide)
    | extra e => exact .of_inf h fun u => .startCopy (u.dropBits _) _
  | trailer b =>
    refine .of_inf h fun u => ?_
    split
    · exact .trailerCheck { u.dropBits 8 with zl := _ }
    · exact .stays rfl

theorem EmitRow.entersAligned {i : Instr} (hi : EmitRow i) {s t : State} (h : exec i s = .next t) :
    EntersAligned s.phase t := by
  cases hi with
  | storedByte b =>
    rw [exec_storedByte, execStoredByte] at h
    refine .of_infEmit h fun h => ?_
    cases h
    refine EntersAligned.emit (fun v => ?_) (s.unhold.dropBits 8) b
    extract_lets
    split
    · exact .blockEnd _ _
    · exact .stays rfl
  | litEmit =>
    rw [exec_lit, execLit] at h
    refine .of_infEmit h fun h => ?_
    cases h
    exact EntersAligned.emit (fun v => .goto _ _ (by decide)) s.unhold _
  | matchCopy len dist =>
    rw [exec_matchCopy, execMatchCopy] at h
    refine .of_infEmit h fun h => ?_
    split at h
    · cases h
    · cases h
      refine EntersAligned.emit (fun v => ?_) s.unhold _
      extract_lets
      split
      · exact .goto _ _ (by decide)
      · exact .stays rfl

theorem State.fill_phase (s : State) : s.fill.phase = s.phase := by
  rcases s.fill_cases with ⟨_, _, _, _, e⟩ | ⟨_, _, e⟩ | ⟨_, _, e⟩ | ⟨_, _, e⟩ <;> rw [e] <;> rfl

/-- INF enters STORED_HDR and TRAILER at a byte boundary (R63, R64). -/
theorem infStep_entersAligned {s t : State} (h : infStep s = .next t) : EntersAligned s.phase t := by
  rcases infStep_cases h with
    ⟨_, rfl⟩ | ⟨_, c, _, ⟨_, rfl⟩ | ⟨_, ⟨_, _, rfl⟩ | ⟨_, _, rfl⟩ | ⟨i, left, hd, he⟩⟩⟩
  · exact .stays rfl
  · exact .stays s.fill_phase
  · exact .stays rfl
  · exact .stays rfl
  · rcases row_performer i with hi | hi | hi
    · exact hi.entersAligned he
    · exact hi.entersAligned he
    · exact absurd hi (not_hostRow_of_decode hd)

/-- BITBUF holds no whole byte beside the bits that INF's next step reads (R61). -/
theorem State.ReaderInv.cnt_le {s : State} (h : s.ReaderInv) (hr : s.top = .running) {c : Ctx} (hc : s.ctx = some c) :
    s.inp.cnt.toNat ≤ c.need + 7 := by
  rcases h.boundary hr with hb | ⟨c', hc', hb⟩
  · omega
  · rwa [Option.some.inj (hc.symm.trans hc')]

/-- A turn of INF that leaves its phase has taken its bits, and less than a byte is left (R61, R62). -/
theorem State.ReaderInv.cnt_le_of_phase_ne {s t : State} (hs : s.ReaderInv) (h : Machine.infStep s = .next t)
    (hp : t.phase ≠ s.phase) : t.inp.cnt.toNat ≤ 7 := by
  rcases infStep_front h with ⟨_, rfl⟩ | ⟨hr, c, hc, ⟨_, rfl⟩ | ⟨hn, hadv | ⟨_, _, rfl⟩⟩⟩
  · exact absurd rfl hp
  · exact absurd s.fill_phase hp
  · obtain ⟨n, hle, _, hinp⟩ := hadv.inp hn
    have := hs.cnt_le hr hc
    rw [hinp, dropBits_cnt]
    omega
  · exact absurd rfl hp

/-- Settles O57: less than a byte is left, and whole bytes, so none; and BITBUF is clear above BITCNT. -/
theorem alignedPhasesStartAligned : Obligations.AlignedPhasesStartAligned := by
  intro s t hs h hp hphase
  have hbuf := (hs.infStep h).buf
  have hlt := hs.cnt_le_of_phase_ne h hp
  have hzero : t.inp.cnt.toNat = 0 := by
    rcases infStep_entersAligned h with hstay | ⟨h1, h2⟩ | hmod
    · exact absurd hstay hp
    · exact absurd hphase (not_or.2 ⟨h1, h2⟩)
    · omega
  rw [hzero, Nat.pow_zero, Nat.lt_one_iff] at hbuf
  exact ⟨BitVec.eq_of_toNat_eq hzero, BitVec.eq_of_toNat_eq hbuf⟩

end Sys2Proof.Machine
end

section
/-! PROOF. INF's turn does the same with IN_FIFO longer at its far end, EOI_SEEN set or OUT_FIFO popped: it commutes with
the host's push, EOI and pop where it is not held (R75, R110, R218). -/

namespace Sys2Proof.Machine

/-- What a host access does to the four registers that INF meets the host in: IN_FIFO, EOI_SEEN, OUT_FIFO, and the value
read. -/
structure Touch where
  inFifo : List Byte → List Byte
  eoi : Bool → Bool
  outFifo : List Byte → List Byte
  rdata : Word → Word

/-- s after such an access. -/
def State.touched (s : State) (a : Touch) : State :=
  { s with
    inp := { s.inp with fifo := a.inFifo s.inp.fifo }
    eoiSeen := a.eoi s.eoiSeen
    out := { s.out with fifo := a.outFifo s.out.fifo }
    rdata := a.rdata s.rdata }

@[simp] theorem State.touched_blk (s : State) (a : Touch) : (s.touched a).blk = s.blk := rfl
@[simp] theorem State.touched_ctl (s : State) (a : Touch) : (s.touched a).ctl = s.ctl := rfl

theorem State.touched_ite {p : Prop} [Decidable p] (x y : State) (a : Touch) :
    (if p then x else y).touched a = if p then x.touched a else y.touched a :=
  apply_ite (State.touched · a) p x y

/-- The access leaves the ends of the FIFOs that INF works at: it takes nothing from IN_FIFO's front, puts nothing at
OUT_FIFO's end, and leaves no less space in OUT_FIFO. -/
structure Touch.Fits (a : Touch) (s : State) : Prop where
  front (b : Byte) (rest : List Byte) : a.inFifo (b :: rest) = b :: a.inFifo rest
  back (b : Byte) : a.outFifo (s.out.fifo ++ [b]) = a.outFifo s.out.fifo ++ [b]
  space : (a.outFifo s.out.fifo).length ≤ s.out.fifo.length

/-! ## The shared operations -/

theorem State.blockEnd_touched (s : State) (a : Touch) : (s.touched a).blockEnd = s.blockEnd.touched a := by
  simp only [State.blockEnd, State.touched_ite]
  rfl

theorem startCopy_touched (s : State) (a : Touch) (dist : Nat) :
    startCopy (s.touched a) dist = (startCopy s dist).touched a := by
  simp only [startCopy, State.touched_ite]
  rfl

theorem dynCounts_touched (s : State) (a : Touch) : dynCounts (s.touched a) = (dynCounts s).touched a := by
  simp only [dynCounts, State.touched_ite]
  rfl

theorem trailerCheck_touched (s : State) (a : Touch) : trailerCheck (s.touched a) = (trailerCheck s).touched a := by
  simp only [trailerCheck, State.touched_ite]
  rfl

theorem State.putLens_touched (s : State) (a : Touch) (n : Nat) (v : BitVec 4) :
    (s.touched a).putLens n v = (s.putLens n v).touched a := by
  simp only [State.putLens, State.touched_ite]
  rfl

theorem State.repeatLens_touched (s : State) (a : Touch) (n : Nat) (v : BitVec 4) :
    (s.touched a).repeatLens n v = (s.repeatLens n v).touched a := by
  simp only [State.repeatLens, State.touched_ite, ← State.putLens_touched]
  rfl

section
variable {k : State → State} {a : Touch} (hk : ∀ u, k (u.touched a) = (k u).touched a)
include hk

theorem zlibChecks_touched (s : State) : zlibChecks (s.touched a) k = (zlibChecks s k).touched a := by
  simp only [zlibChecks, State.touched_ite, ← hk]
  rfl

/-- An emit puts its byte behind what the access left of OUT_FIFO (R136). -/
theorem State.emit_touched {s : State} (ha : a.Fits s) (b : Byte) :
    (s.touched a).emit b k = (s.emit b k).touched a := by
  have hout : { s.touched a with out := (s.touched a).out.emitted b } =
      State.touched { s with out := s.out.emitted b } a := by
    unfold State.touched
    rw [show (s.out.emitted b).fifo = s.out.fifo ++ [b] from rfl, ha.back]
    rfl
  simp only [State.emit, State.touched_ite, ← hk, hout]
  rfl

theorem State.validate_touched (s : State) (t : Table) (o i : ErrCause) :
    (s.touched a).validate t o i k = (s.validate t o i k).touched a := by
  unfold State.validate
  split
  · rfl
  · exact hk s
  · rfl

theorem State.buildCL_touched (s : State) : (s.touched a).buildCL k = (s.buildCL k).touched a := by
  simp only [State.buildCL, ← State.validate_touched hk]
  rfl

theorem State.buildLL_touched (s : State) : (s.touched a).buildLL k = (s.buildLL k).touched a := by
  simp only [State.buildLL, ← State.validate_touched hk]
  rfl

theorem State.buildD_touched (s : State) : (s.touched a).buildD k = (s.buildD k).touched a := by
  simp only [State.buildD, State.touched_blk, State.touched_ctl]
  split
  · rfl
  · rw [← hk]
    rfl
  · split
    · rw [← hk]
      rfl
    · rfl

end

/-! ## The rows -/

/-- A step of INF commutes with the access where its writes do. -/
theorem State.inf_touched {s t : State} {a : Touch} {g : State → State} (h : s.inf (fun u => .next (g u)) = .next t)
    (hg : ∀ u, g (u.touched a) = (g u).touched a) :
    (s.touched a).inf (fun u => .next (g u)) = .next (t.touched a) := by
  rcases State.inf_cases h with ⟨hr, h⟩ | ⟨hr, rfl⟩
  · cases h
    rw [State.inf_running _ (s := s.touched a) hr]
    exact congrArg _ (hg s.unhold)
  · exact State.inf_stopped _ (s := t.touched a) hr

/-- INF's rows that emit nothing commute with every such access. -/
theorem InfMeaning.touched {m : State → Out} (hm : InfMeaning m) {s t : State} (a : Touch) (h : m s = .next t) :
    m (s.touched a) = .next (t.touched a) := by
  cases hm with
  | zhdrCmf v | blockStored f | blockFixed f | blockDynamic f | blockReserved f | llReserved x | dReserved x =>
    exact State.inf_touched h fun _ => rfl
  | zhdrFlg v => exact State.inf_touched h fun u => zlibChecks_touched (fun _ => rfl) { u.dropBits 8 with zl := _ }
  | storedHdr f =>
    cases f with
    | len v => exact State.inf_touched h fun _ => rfl
    | nlen v =>
      refine State.inf_touched h fun u => ?_
      simp only [State.touched_ite, ← State.blockEnd_touched]
      rfl
  | dynHdr f =>
    cases f with
    | hlit v | hdist v => exact State.inf_touched h fun _ => rfl
    | hclen v => exact State.inf_touched h fun u => dynCounts_touched { u.dropBits 4 with blk := _ } a
  | dynClen f =>
    cases f with
    | field v => exact State.inf_touched h fun _ => rfl
    | build => exact State.inf_touched h fun u => State.buildCL_touched (fun _ => rfl) u
  | clLen l => exact State.inf_touched h fun u => State.putLens_touched u.endCode a 1 l
  | clRep16 f =>
    cases f with
    | code =>
      refine State.inf_touched h fun u => ?_
      rw [State.touched_ite]
      rfl
    | extra e => exact State.inf_touched h fun u => State.repeatLens_touched (u.dropBits 2) a _ _
  | clZero17 f =>
    cases f with
    | code => exact State.inf_touched h fun _ => rfl
    | extra e => exact State.inf_touched h fun u => State.repeatLens_touched (u.dropBits 3) a _ _
  | clZero18 f =>
    cases f with
    | code => exact State.inf_touched h fun _ => rfl
    | extra e => exact State.inf_touched h fun u => State.repeatLens_touched (u.dropBits 7) a _ _
  | dynBuild =>
    refine State.inf_touched h fun u => ?_
    have hbuild : (u.touched a).buildLL (fun v => v.buildD fun w => w.goto .sym) = _ :=
      State.buildLL_touched (fun v => State.buildD_touched (fun _ => rfl) v) u
    rw [hbuild, State.touched_ite]
    rfl
  | litCode b =>
    unfold execLit at h ⊢
    exact State.inf_touched h fun _ => rfl
  | eob => exact State.inf_touched h fun u => State.blockEnd_touched u.endCode a
  | length sym base f =>
    cases f with
    | code | extra e => exact State.inf_touched h fun _ => rfl
  | distance sym base f =>
    cases f with
    | code => exact State.inf_touched h fun _ => rfl
    | extra e => exact State.inf_touched h fun u => startCopy_touched (u.dropBits _) a _
  | trailer b =>
    refine State.inf_touched h fun u => ?_
    simp only [State.touched_ite, ← trailerCheck_touched]
    rfl

theorem Touch.Fits.canEmit {s : State} {a : Touch} (ha : a.Fits s) (hc : s.canEmit) : (s.touched a).canEmit :=
  Nat.lt_of_le_of_lt ha.space hc

/-- INF's rows that emit commute with an access that fits, where OUT_FIFO has space. -/
theorem EmitRow.exec_touched {i : Instr} (hi : EmitRow i) {s t : State} {a : Touch} (ha : a.Fits s)
    (hr : s.top = .running) (hc : s.canEmit) (h : exec i s = .next t) : exec i (s.touched a) = .next (t.touched a) := by
  cases hi with
  | storedByte b =>
    rw [exec_storedByte, execStoredByte, State.infEmit_space _ hr hc] at h
    cases h
    rw [exec_storedByte, execStoredByte, State.infEmit_space _ (s := s.touched a) hr (ha.canEmit hc)]
    refine congrArg _ (State.emit_touched (s := s.unhold.dropBits 8) (fun w => ?_) { ha with } b)
    simp only [State.touched_ite, ← State.blockEnd_touched]
    rfl
  | litEmit =>
    rw [exec_lit, execLit, State.infEmit_space _ hr hc] at h
    cases h
    rw [exec_lit, execLit, State.infEmit_space _ (s := s.touched a) hr (ha.canEmit hc)]
    exact congrArg _ (State.emit_touched (s := s.unhold) (fun _ => rfl) { ha with } _)
  | matchCopy len dist =>
    match hw : winRead s.out dist.toNat with
    | .error e =>
      rw [exec_matchCopy_fault hr hc len hw] at h
      cases h
    | .ok b =>
      rw [exec_matchCopy_read hr hc len hw] at h
      cases h
      rw [exec_matchCopy_read (s := s.touched a) hr (ha.canEmit hc) len hw]
      refine congrArg _ (State.emit_touched (s := s.took 0) (fun w => ?_) { ha with } b)
      simp only [State.copied, State.touched_ite]
      rfl

/-! ## INF's turn -/

/-- A fill that takes a byte takes the same byte after the access (R61). -/
theorem State.fill_touched {s : State} {a : Touch} (ha : a.Fits s) (hr : s.fill.top = .running)
    (hheld : s.fill.heldIn = false) : (s.touched a).fill = s.fill.touched a := by
  rcases s.fill_cases with ⟨b, rest, hf, hc, e⟩ | ⟨_, _, e⟩ | ⟨_, _, e⟩ | ⟨_, _, e⟩
  · have hf' : (s.touched a).inp.fifo = b :: a.inFifo rest := by
      rw [← ha.front, ← hf]
      rfl
    rw [e, State.fill, hf']
    exact if_neg hc
  · rw [e] at hr
    cases hr
  · rw [e] at hr
    cases hr
  · rw [e] at hheld
    cases hheld

/-- INF's turn commutes with an access that fits, where INF is not held and the stream goes on (R75). -/
theorem infStep_touched {s t : State} {a : Touch} (ha : a.Fits s) (hr : s.top = .running) (hheld : s.held = false)
    (h : infStep s = .next t) (ht : t.top = .running) : infStep (s.touched a) = .next (t.touched a) := by
  obtain ⟨hin, hout⟩ := (holdsOnlyWait s hr).2.2 t hheld h
  rcases infStep_cases h with
    ⟨hstop, _⟩ | ⟨_, c, hc, ⟨hn, rfl⟩ | ⟨hn, ⟨h', hd, rfl⟩ | ⟨h', hd, rfl⟩ | ⟨i, left, hd, he⟩⟩⟩
  · exact absurd hr hstop
  · rw [infStep_fill (s := s.touched a) hr hc hn, State.fill_touched ha ht hin]
  all_goals rw [infStep_decode (s := s.touched a) hr hc hn]
  · exact decodeAction_more (s := s.touched a) hd
  · exact decodeAction_invalid (s := s.touched a) hd
  · rw [decodeAction_row (s := s.touched a) hd]
    rcases row_performer i with hm | hi | hi
    · exact hm.touched a he
    · refine hi.exec_touched ha hr ?_ he
      by_contra hfull
      rw [hi.exec_full hr hfull] at he
      cases he
      cases hout
    · exact absurd hi (not_hostRow_of_decode hd)

/-! ## The three accesses -/

/-- The access that changes nothing but EOI_SEEN (R103). -/
def Touch.ends (e : Bool) : Touch := { inFifo := id, eoi := fun _ => e, outFifo := id, rdata := id }

/-- An accepted push (R105). -/
def Touch.push (b : Byte) : Touch := { inFifo := (· ++ [b]), eoi := id, outFifo := id, rdata := id }

/-- A pop of byte x (R106). -/
def Touch.pop (x : Byte) : Touch :=
  { inFifo := id, eoi := id, outFifo := List.tail, rdata := fun _ => 0x100 ||| x.setWidth 32 }

theorem Touch.fits_ends (e : Bool) (s : State) : (Touch.ends e).Fits s :=
  ⟨fun _ _ => rfl, fun _ => rfl, Nat.le_refl _⟩

theorem Touch.fits_push (b : Byte) (s : State) : (Touch.push b).Fits s :=
  ⟨fun _ _ => rfl, fun _ => rfl, Nat.le_refl _⟩

theorem Touch.fits_pop {s : State} {x : Byte} {rest : List Byte} (hf : s.out.fifo = x :: rest) :
    (Touch.pop x).Fits s := by
  refine ⟨fun _ _ => rfl, fun b => ?_, ?_⟩
  · rw [hf]
    rfl
  · rw [hf]
    exact Nat.le_succ _

theorem exec_eoi_touched {s : State} (hr : s.top = .running) : exec .eoi s = .next (s.touched (.ends true)) := by
  rw [exec_eoi, execEoi_eq, if_pos hr]
  rfl

theorem exec_push_touched {s : State} (hr : s.top = .running) (he : s.eoiSeen = false)
    (hf : s.inp.fifo.length < s.cfg.inDepth) (b : Byte) : exec (.push b) s = .next (s.touched (.push b)) := by
  have hfull : s.inFull = false := by simpa [State.inFull] using Nat.ne_of_lt hf
  have hpush : pushRunning b s = s.touched (.push b) := (if_neg (by simp [he])).trans (if_neg (by simp [hfull]))
  rw [exec_push, execPush, hr, ← hpush]

theorem exec_pop_touched {s : State} {x : Byte} {rest : List Byte} (hf : s.out.fifo = x :: rest) :
    exec .pop s = .next (s.touched (.pop x)) := by
  rw [exec_pop, execPop, hf, State.touched, hf]
  rfl

/-- INF's turn leaves EOI_SEEN: it would leave any value put in its place, so it leaves the one that is there. -/
theorem infStep_eoiSeen {s t : State} (hr : s.top = .running) (hheld : s.held = false) (h : infStep s = .next t)
    (ht : t.top = .running) : t.eoiSeen = s.eoiSeen := by
  have hself : infStep s = .next (t.touched (.ends s.eoiSeen)) :=
    infStep_touched (Touch.fits_ends s.eoiSeen s) hr hheld h ht
  have hsame : t = t.touched (.ends s.eoiSeen) := Host.Outcome.next.inj (h.symm.trans hself)
  rw [hsame]
  rfl

/-- INF's turn leaves the bytes at OUT_FIFO's front (R136). -/
theorem infStep_outFifo {s t : State} {x : Byte} {rest : List Byte} (h : infStep s = .next t)
    (hf : s.out.fifo = x :: rest) : ∃ rest', t.out.fifo = x :: rest' := by
  rcases (infStep_emission h).out with e | ⟨_, hc, b, e⟩
  · exact ⟨rest, by rw [e, hf]⟩
  · exact ⟨rest ++ [b], by rw [e, (s.out.emitted_emits b hc).fifo, hf]; rfl⟩

/-- Settles O40: each of the three accesses is a touch that fits, before INF's turn and after it. -/
theorem hostAndInfCommute : Obligations.HostAndInfCommute := by
  intro s t u hr hheld h ht
  refine ⟨fun b he hf hu => ?_, fun hu => ?_, fun hne hu => ?_⟩
  · rw [exec_push_touched hr he hf] at hu
    cases hu
    refine ⟨_, infStep_touched (Touch.fits_push b s) hr hheld h ht, exec_push_touched ht ?_ ?_ b⟩
    · rw [infStep_eoiSeen hr hheld h ht, he]
    · rw [infStep_cfg h]
      exact Nat.lt_of_le_of_lt (infStep_inFifo h) hf
  · rw [exec_eoi_touched hr] at hu
    cases hu
    exact ⟨_, infStep_touched (Touch.fits_ends true s) hr hheld h ht, exec_eoi_touched ht⟩
  · obtain ⟨x, rest, hf⟩ := List.exists_cons_of_ne_nil hne
    obtain ⟨rest', hf'⟩ := infStep_outFifo h hf
    rw [exec_pop_touched hf] at hu
    cases hu
    exact ⟨_, infStep_touched (Touch.fits_pop hf) hr hheld h ht, exec_pop_touched hf'⟩

end Sys2Proof.Machine
end

section
/-! PROOF. The length and distance rows as equations, and the four rows that `MATCH len dist` of a trace stands for, run
in order (R91, R92, R100, R140 to R142). -/

namespace Sys2Proof.Machine

/-! ## The steps of a length or distance symbol -/

/-- The code of a length symbol is read, and its extra bits are next (R137). -/
def State.lenLatched (s : State) (sym : BitVec 9) : State :=
  State.into { s.took 1 with hc := Hc.zero, copy := { s.copy with lSym := sym } } .lextra

/-- The code of a distance symbol is read, and its extra bits are next (R141). -/
def State.distLatched (s : State) (sym : BitVec 5) : State :=
  State.into { s.took 1 with hc := Hc.zero, copy := { s.copy with dSym := sym } } .dextra

section
variable {k : Nat} {s : State} (hr : s.top = .running)
include hr

theorem lenSymbol_code (sym : BitVec 9) (base : Nat) : lenSymbol (k := k) sym base .code s = .next (s.lenLatched sym) :=
  State.inf_running _ hr

theorem lenSymbol_extra (sym : BitVec 9) (base : Nat) (e : BitVec k) :
    lenSymbol sym base (.extra e) s =
      .next
        (State.into
          { s.took k with copy := { s.copy with pendLen := BitVec.ofNat 9 (base + e.toNat), lSym := 0 } } .dist) :=
  State.inf_running _ hr

theorem distSymbol_code (sym : BitVec 5) (base : Nat) :
    distSymbol (k := k) sym base .code s = .next (s.distLatched sym) :=
  State.inf_running _ hr

theorem distSymbol_extra (sym : BitVec 5) (base : Nat) (e : BitVec k) :
    distSymbol sym base (.extra e) s = .next (startCopy (s.took k) (base + e.toNat)) :=
  State.inf_running _ hr

end

/-- A distance inside the history starts the copy (R142). -/
theorem startCopy_reaches {s : State} {dist : Nat} (h : dist ≤ s.out.hist.toNat) :
    startCopy s dist =
      State.into
        { s with copy := { s.copy with dist := BitVec.ofNat 16 dist, len := s.copy.pendLen, pendLen := 0, dSym := 0 } }
        .copy :=
  if_neg (Nat.not_lt.2 h)

/-- A distance beyond the history raises DIST_TOO_FAR (R142). -/
theorem startCopy_tooFar {s : State} {dist : Nat} (h : s.out.hist.toNat < dist) : startCopy s dist = s.stopped 5 20 :=
  if_pos h

theorem lengthRow_of_lenSymbol {k : Nat} {row : SymStep k → Instr} {sym base : Nat}
    (h : ∀ f, exec (row f) = lenSymbol (BitVec.ofNat 9 sym) base f) : lengthRow row sym base := by
  refine ⟨fun s hs => ?_, fun e s hs => ?_⟩
  · rw [h]
    exact lenSymbol_code hs.1 _ base
  · rw [h]
    exact lenSymbol_extra hs.1 _ base e

theorem distanceRow_of_distSymbol {k : Nat} {row : SymStep k → Instr} {sym base : Nat}
    (h : ∀ f, exec (row f) = distSymbol (BitVec.ofNat 5 sym) base f) : distanceRow row sym base := by
  refine ⟨fun s hs => ?_, fun e s hs => ⟨fun hd => ?_, fun hd => ?_⟩⟩
  · rw [h]
    exact distSymbol_code hs.1 _ base
  · rw [h, distSymbol_extra hs.1, startCopy_reaches (s := s.took k) hd]
    rfl
  · rw [h, distSymbol_extra hs.1, startCopy_tooFar (s := s.took k) hd]

/-- Settles O21: each of the 29 rows is the shared meaning at its symbol and base. -/
theorem lengthSymbolsComplete : Obligations.LengthSymbolsComplete := by
  unfold Obligations.LengthSymbolsComplete
  refine ⟨?_, ?_, ?_, ?_, ?_, ?_, ?_, ?_, ?_, ?_, ?_, ?_, ?_, ?_, ?_, ?_, ?_, ?_, ?_, ?_, ?_, ?_, ?_, ?_, ?_, ?_, ?_,
    ?_, ?_⟩
  all_goals exact lengthRow_of_lenSymbol fun _ => rfl

/-- Settles O22: each of the 30 rows is the shared meaning at its symbol and base. -/
theorem distanceSymbolsComplete : Obligations.DistanceSymbolsComplete := by
  unfold Obligations.DistanceSymbolsComplete
  refine ⟨?_, ?_, ?_, ?_, ?_, ?_, ?_, ?_, ?_, ?_, ?_, ?_, ?_, ?_, ?_, ?_, ?_, ?_, ?_, ?_, ?_, ?_, ?_, ?_, ?_, ?_, ?_,
    ?_, ?_, ?_⟩
  all_goals exact distanceRow_of_distSymbol fun _ => rfl

/-! ## The symbol of a length or a distance -/

/-- A search from the last number down ends at the greatest one that answers. -/
theorem findSome?_range_rev {A : Type} (g : Nat → Option A) {n j : Nat} (hj : j < n) (h : g j ≠ none) :
    ∃ m < n, g m ≠ none ∧ (List.range n).findSome? (fun i => g (n - 1 - i)) = g m ∧
      ∀ i, m < i → i < n → g i = none := by
  induction n with
  | zero => omega
  | succ n ih =>
    have hfun : ((fun i => g (n + 1 - 1 - i)) ∘ Nat.succ) = fun i => g (n - 1 - i) := by
      funext i
      exact congrArg g (by simp only [Nat.succ_eq_add_one]; omega)
    rw [List.range_succ_eq_map, List.findSome?_cons, List.findSome?_map, hfun]
    match hn : g (n + 1 - 1 - 0) with
    | some a => exact ⟨n, by omega, fun e => Option.some_ne_none a (hn.symm.trans e), hn.symm, fun i hi hi' => by omega⟩
    | none =>
      have hjn : j ≠ n := fun e => h (e ▸ hn)
      obtain ⟨m, hm, hsome, hfind, hlast⟩ := ih (by omega)
      refine ⟨m, by omega, hsome, hfind, fun i hi hi' => ?_⟩
      rcases Nat.lt_succ_iff_lt_or_eq.1 hi' with hin | rfl
      · exact hlast i hi hin
      · exact hn

/-- What entry j of a base table answers for v, where its base is not above v: the entry's number and the extra value
(R100). -/
def entryFor (tab : List (Nat × Nat)) (v j : Nat) : Option (Nat × Nat) :=
  match tab[j]? with
  | some (b, _) => if b ≤ v then some (j, v - b) else none
  | none => none

theorem pairSym_eq (tab : List (Nat × Nat)) (v : Nat) :
    pairSym tab v = (List.range tab.length).findSome? fun i => entryFor tab v (tab.length - 1 - i) := rfl

theorem entryFor_of_getElem? {tab : List (Nat × Nat)} {v j b k : Nat} (h : tab[j]? = some (b, k)) :
    entryFor tab v j = if b ≤ v then some (j, v - b) else none := by
  simp only [entryFor, h]

/-- A base table whose first base is `lo` and whose entries each reach the next one's base, the last one `hi`, splits
every value from `lo` up to `hi` into an entry's base and extra bits of that entry's width (R91, R92). -/
theorem pairSym_covers {tab : List (Nat × Nat)} {lo k0 hi v : Nat} (hfirst : tab[0]? = some (lo, k0))
    (hnext : ∀ (j : Nat) (h : j < tab.length), (tab.getD (j + 1) (hi, 0)).1 ≤ tab[j].1 + 2 ^ tab[j].2) (hlo : lo ≤ v)
    (hhi : v < hi) :
    ∃ (j b k : Nat) (e : BitVec k), tab[j]? = some (b, k) ∧ pairSym tab v = some (j, e.toNat) ∧ b + e.toNat = v := by
  obtain ⟨hpos, -⟩ := List.getElem?_eq_some_iff.1 hfirst
  obtain ⟨j, hj, hsome, hfind, hlast⟩ :=
    findSome?_range_rev (entryFor tab v) hpos (by rw [entryFor_of_getElem? hfirst, if_pos hlo]; simp)
  have hentry : tab[j]? = some (tab[j].1, tab[j].2) := List.getElem?_eq_getElem hj
  rw [entryFor_of_getElem? hentry] at hsome hfind
  have hbase : tab[j].1 ≤ v := by
    by_contra hb
    exact hsome (if_neg hb)
  have hbelow : v < (tab.getD (j + 1) (hi, 0)).1 := by
    by_cases hj' : j + 1 < tab.length
    · have hnone := hlast (j + 1) (Nat.lt_succ_self j) hj'
      rw [entryFor_of_getElem? (b := tab[j + 1].1) (List.getElem?_eq_getElem hj')] at hnone
      rw [List.getD_eq_getElem _ _ hj']
      by_contra hb
      rw [if_pos (Nat.not_lt.1 hb)] at hnone
      cases hnone
    · rwa [List.getD_eq_default _ _ (Nat.not_lt.1 hj')]
  have hextra : (BitVec.ofNat tab[j].2 (v - tab[j].1)).toNat = v - tab[j].1 := by
    have := hnext j hj
    rw [BitVec.toNat_ofNat, Nat.mod_eq_of_lt (by omega)]
  refine ⟨j, tab[j].1, tab[j].2, BitVec.ofNat tab[j].2 (v - tab[j].1), hentry, ?_, ?_⟩
  · rw [pairSym_eq, hfind, if_pos hbase, hextra]
  · rw [hextra]
    omega

/-! ## The four rows -/

/-- The two rows of an entry of R91 are the length symbol's meaning at the entry's base. -/
theorem exec_lenRows {j b k : Nat} (h : lenTable[j]? = some (b, k)) (e : BitVec k) :
    ∃ (x y : Instr) (sym : BitVec 9), lenCodeRow j = some x ∧ lenExtraRow j e.toNat = some y ∧
      exec x = lenSymbol (k := k) sym b .code ∧ exec y = lenSymbol sym b (.extra e) := by
  have hj : j < 29 := (List.getElem?_eq_some_iff.1 h).1
  have he : BitVec.ofNat k e.toNat = e := by simp
  generalize e.toNat = n at he ⊢
  subst he
  interval_cases j
  all_goals
    cases h
    exact ⟨_, _, _, rfl, rfl, rfl, rfl⟩

/-- The two rows of an entry of R92 are the distance symbol's meaning at the entry's base. -/
theorem exec_distRows {j b k : Nat} (h : distTable[j]? = some (b, k)) (e : BitVec k) :
    ∃ (x y : Instr) (sym : BitVec 5), distCodeRow j = some x ∧ distExtraRow j e.toNat = some y ∧
      exec x = distSymbol (k := k) sym b .code ∧ exec y = distSymbol sym b (.extra e) := by
  have hj : j < 30 := (List.getElem?_eq_some_iff.1 h).1
  have he : BitVec.ofNat k e.toNat = e := by simp
  generalize e.toNat = n at he ⊢
  subst he
  interval_cases j
  all_goals
    cases h
    exact ⟨_, _, _, rfl, rfl, rfl, rfl⟩

theorem runAll_cons_cons {i j : Instr} {s u t : State} (hi : exec i s = .next u) (hj : exec j u = .next t)
    (is : List Instr) : runAll (i :: j :: is) s = runAll is t := by
  simp only [runAll, hi, hj]

/-- The two rows of a length latch it in PEND_LEN (R140). -/
theorem runAll_lenRows {x y : Instr} {k base : Nat} {sym : BitVec 9} {e : BitVec k}
    (hx : exec x = lenSymbol (k := k) sym base .code) (hy : exec y = lenSymbol sym base (.extra e)) (is : List Instr)
    {s : State} (hr : s.top = .running) :
    ∃ t, runAll (x :: y :: is) s = runAll is t ∧ t.copy.pendLen = BitVec.ofNat 9 (base + e.toNat) ∧ t.out = s.out ∧
      t.err = s.err ∧ t.top = .running :=
  ⟨_, runAll_cons_cons ((congrFun hx s).trans (lenSymbol_code hr sym base))
    ((congrFun hy _).trans (lenSymbol_extra (s := s.lenLatched sym) hr sym base e)) is, rfl, rfl, rfl, hr⟩

/-- The two rows of a distance inside the history start the copy of PEND_LEN bytes (R142). -/
theorem runAll_distRows {x y : Instr} {k base : Nat} {sym : BitVec 5} {e : BitVec k}
    (hx : exec x = distSymbol (k := k) sym base .code) (hy : exec y = distSymbol sym base (.extra e)) (is : List Instr)
    {s : State} (hr : s.top = .running) (hd : base + e.toNat ≤ s.out.hist.toNat) :
    ∃ t, runAll (x :: y :: is) s = runAll is t ∧ t.phase = .copy ∧ t.copy.len = s.copy.pendLen ∧
      t.copy.dist = BitVec.ofNat 16 (base + e.toNat) ∧ t.out = s.out ∧ t.err = s.err ∧ t.top = .running :=
  ⟨_, runAll_cons_cons ((congrFun hx s).trans (distSymbol_code hr sym base))
    (((congrFun hy _).trans (distSymbol_extra (s := s.distLatched sym) hr sym base e)).trans
      (congrArg _ (startCopy_reaches hd))) is, rfl, rfl, rfl, rfl, rfl, hr⟩

/-- Settles O7: the length and the distance each split into an entry and its extra bits, and the four rows run. -/
theorem matchNotationRuns : Obligations.MatchNotationRuns := by
  intro len dist hlen3 hlen258 hdist1 hdistmax
  obtain ⟨i, b, k, e, hi, hlen, rfl⟩ :=
    pairSym_covers (hi := 259) (v := len) (tab := lenTable) rfl (by decide) hlen3 (by omega)
  obtain ⟨j, c, m, f, hj, hdist, rfl⟩ :=
    pairSym_covers (hi := 32769) (v := dist) (tab := distTable) rfl (by decide) hdist1 (by omega)
  obtain ⟨x, y, lsym, hx, hy, hex, hey⟩ := exec_lenRows hi e
  obtain ⟨z, w, dsym, hz, hw, hez, hew⟩ := exec_distRows hj f
  refine ⟨[x, y, z, w], ?_, rfl, fun s hr hhist => ?_⟩
  · rw [matchRows, if_pos ⟨hlen3, hlen258, hdist1, hdistmax⟩]
    simp only [hlen, hdist, hx, hy, hz, hw]
  · obtain ⟨u, hu, hpend, houtu, herru, hru⟩ := runAll_lenRows hex hey [z, w] hr
    obtain ⟨t, ht, hphase, hl, hd, hout, herr, htop⟩ := runAll_distRows hez hew [] hru (houtu ▸ hhist)
    refine ⟨t, hu.trans ht, hphase, ?_, ?_, hout.trans houtu, herr.trans herru, htop⟩
    · rw [hl, hpend, BitVec.toNat_ofNat]
      omega
    · rw [hd, BitVec.toNat_ofNat]
      omega

end Sys2Proof.Machine
end

section
/-! PROOF. The dynamic header's counts, the code-length code and its repeats, and the trailer, as equations (R116, R128,
R129, R132 to R134). -/

namespace Sys2Proof.Machine

/-! ## The counts -/

/-- Settles O23: each field's step, and the limits of R128 in the step of the last one. -/
theorem dynamicCounts : Obligations.DynamicCounts := by
  refine ⟨fun v s hs => (exec_dynHdr _ s).trans (State.inf_running _ hs.1),
    fun v s hs => (exec_dynHdr _ s).trans (State.inf_running _ hs.1), fun v s hs => ?_⟩
  have hstep : exec (.dynHdr (.hclen v)) s =
      .next (dynCounts { s.took 4 with blk := { s.blk with ncode := BitVec.ofNat 5 (v.toNat + 4) } }) :=
    (exec_dynHdr _ s).trans (State.inf_running _ hs.1)
  rw [hstep]
  refine ⟨fun hnlen hndist => congrArg _ (if_neg ?_), fun hover => congrArg _ (if_pos hover)⟩
  exact not_or.2 ⟨Nat.not_lt.2 hnlen, Nat.not_lt.2 hndist⟩

/-! ## The code-length code -/

theorem clOrder_lt {i k : Nat} (h : clOrder[i]? = some k) : k < 19 := by
  have hall : ∀ x ∈ clOrder, x < 19 := by decide
  exact hall k (List.mem_of_getElem? h)

section
variable {s : State} {t : Table} (o i : ErrCause) (k : State → State)

theorem State.validate_complete (h : t.left = some 0) : s.validate t o i k = k s := by
  simp only [State.validate, h]

theorem State.validate_oversubscribed (h : t.left = none) : s.validate t o i k = s.fail o := by
  simp only [State.validate, h]

theorem State.validate_incomplete {n : Nat} (h : t.left = some (n + 1)) : s.validate t o i k = s.fail i := by
  simp only [State.validate, h]

end

/-- Settles O24: a length is written at the symbol that CL_ORDER names, and the build is Validate's three cases. -/
theorem codeLengthCode : Obligations.CodeLengthCode := by
  refine ⟨fun v s k hs _ hk hlen => ?_, fun s hr => ?_⟩
  · refine ⟨s.blk.clLens.set k v, ?_, ?_, fun j hj => ?_, ?_⟩
    · rw [List.length_set, hlen]
    · rw [List.getElem?_set_self (by rw [hlen]; exact clOrder_lt hk)]
    · rw [List.getElem?_set_ne hj.symm]
    · have hsym : clOrder.getD s.blk.lenIdx.toNat Config.clSyms = k := by
        rw [List.getD_eq_getElem?_getD, hk]
        rfl
      rw [← hsym]
      exact (exec_dynClen _ s).trans (State.inf_running _ hs.1)
  · have hstep : exec (.dynClen .build) s =
        .next ((s.took 0).buildCL fun u => State.goto { u with blk := { u.blk with lenIdx := 0 } } .dynLens) := by
      rw [State.took_zero]
      exact (exec_dynClen _ s).trans (State.inf_running _ hr)
    rw [hstep, State.buildCL]
    exact ⟨fun h => congrArg _ (State.validate_complete _ _ _ h),
      fun h => congrArg _ (State.validate_oversubscribed _ _ _ h),
      fun n h => congrArg _ (State.validate_incomplete _ _ _ h)⟩

/-! ## The repeats -/

/-- A repeat past the last length writes none (R132 to R134). -/
theorem State.repeatLens_overflow {s : State} {n : Nat}
    (h : s.blk.nlen.toNat + s.blk.ndist.toNat < s.blk.lenIdx.toNat + n) (v : BitVec 4) :
    s.repeatLens n v = s.stopped 5 11 :=
  if_pos h

/-- A repeat that fits writes its run, and DYN_BUILD follows where the run ends at the last length (R132 to R134). -/
theorem State.repeatLens_fits {s : State} {n : Nat}
    (h : s.blk.lenIdx.toNat + n ≤ s.blk.nlen.toNat + s.blk.ndist.toNat) (v : BitVec 4) :
    s.repeatLens n v =
      let t : State :=
        { s with
          blk :=
            { s.blk with
              lens := setLens s.blk.lens s.blk.lenIdx.toNat n v
              lenIdx := BitVec.ofNat 9 (s.blk.lenIdx.toNat + n)
              clSym := 0 } }
      if s.blk.lenIdx.toNat + n = s.blk.nlen.toNat + s.blk.ndist.toNat then t.into .dynBuild else t := by
  refine (if_neg (Nat.not_lt.2 h)).trans ?_
  by_cases hlast : s.blk.lenIdx.toNat + n = s.blk.nlen.toNat + s.blk.ndist.toNat
  · rw [if_pos hlast]
    exact if_pos hlast.ge
  · rw [if_neg hlast]
    exact if_neg fun hge => hlast (Nat.le_antisymm h hge)

/-- The extra-bits step of each repeat symbol is a repeat: of the previous length, or of 0 (R132 to R134). -/
theorem exec_repeatRow {i : Instr} {k r : Nat} {v : BitVec 4} {s : State} (hr : s.top = .running)
    (h : (∃ e : BitVec 2, i = .clRep16 (.extra e) ∧ k = 2 ∧ r = 3 + e.toNat ∧ 1 ≤ s.blk.lenIdx.toNat ∧
        s.blk.lens[s.blk.lenIdx.toNat - 1]? = some v) ∨
      (∃ e : BitVec 3, i = .clZero17 (.extra e) ∧ k = 3 ∧ r = 3 + e.toNat ∧ v = 0) ∨
      ∃ e : BitVec 7, i = .clZero18 (.extra e) ∧ k = 7 ∧ r = 11 + e.toNat ∧ v = 0) :
    exec i s = .next ((s.took k).repeatLens r v) := by
  rcases h with ⟨e, rfl, rfl, rfl, -, hv⟩ | ⟨e, rfl, rfl, rfl, rfl⟩ | ⟨e, rfl, rfl, rfl, rfl⟩
  · have hprev : s.blk.lens.getD (s.blk.lenIdx.toNat - 1) 0 = v := by
      rw [List.getD_eq_getElem?_getD, hv]
      rfl
    rw [← hprev]
    exact (exec_clRep16 _ s).trans (State.inf_running _ hr)
  · exact (exec_clZero17 _ s).trans (State.inf_running _ hr)
  · exact (exec_clZero18 _ s).trans (State.inf_running _ hr)

/-- Settles O26: the three rows are one repeat, which overflows or writes exactly its run. -/
theorem codeLengthRepeats : Obligations.CodeLengthRepeats := by
  intro i k r v s hs hrow
  rw [exec_repeatRow hs.1 hrow]
  refine ⟨fun hover => congrArg _ (State.repeatLens_overflow (s := s.took k) hover v), fun hfits hmax hlen => ?_⟩
  refine ⟨setLens s.blk.lens s.blk.lenIdx.toNat r v, ?_, fun j hlo hhi => ?_, fun j hj => ?_, ?_⟩
  · rw [setLens_length, hlen]
  · rw [setLens_getElem?, if_pos ⟨hlo, hhi, by omega⟩]
  · rw [setLens_getElem?, if_neg (by omega)]
  · exact congrArg _ (State.repeatLens_fits (s := s.took k) hfits v)

/-! ## The trailer -/

/-- TRAILER_VAL takes a byte in at its low end (R116). -/
theorem shiftByteIn_toNat (w : Word) (b : Byte) :
    ((w <<< 8) ||| b.setWidth 32).toNat = (256 * w.toNat + b.toNat) % 2 ^ 32 := by
  have hb : b.toNat < 2 ^ 8 := b.isLt
  have hw : (w <<< 8).toNat = 2 ^ 8 * (w.toNat % 2 ^ 24) := by
    rw [BitVec.toNat_shiftLeft, Nat.shiftLeft_eq]
    omega
  have hext : (b.setWidth 32).toNat = b.toNat := by
    rw [BitVec.toNat_setWidth]
    omega
  rw [BitVec.toNat_or, hw, hext, ← Nat.two_pow_add_eq_or_of_lt hb]
  omega

/-- The compare of the fourth byte's step (R116). -/
theorem trailerCheck_eq (s : State) :
    trailerCheck s =
      if s.zl.trailerVal.toNat = 65536 * s.out.s2.toNat + s.out.s1.toNat then { s with top := .done }
      else s.stopped 4 22 := by
  simp only [← adler_toNat, BitVec.toNat_inj]
  exact ite_not ..

/-- Settles O28: the byte is shifted in, and the fourth one's step compares the value with the Adler-32 sums. -/
theorem trailerByte : Obligations.TrailerByte := by
  intro b s hs hn
  refine ⟨(s.zl.trailerVal <<< 8) ||| b.setWidth 32, shiftByteIn_toNat _ _, ?_⟩
  intro t
  have hstep : exec (.trailer b) s = .next (if t.zl.trailerN = 4 then trailerCheck t else t) :=
    (exec_trailer b s).trans (State.inf_running _ hs.1)
  have hfourth : t.zl.trailerN = 4 ↔ ¬ s.zl.trailerN.toNat < 3 := by
    change s.zl.trailerN + 1 = 4 ↔ _
    bv_omega
  simp only [hstep, hfourth, ite_not, trailerCheck_eq]
  rfl

end Sys2Proof.Machine
end

section
/-! PROOF. The codes of the fixed tables, each symbol's by its place in SYMS (R93, R121, R127). -/

namespace Sys2Proof

theorem symRange_succ (lo n : Nat) : symRange lo (n + 1) = BitVec.ofNat 9 lo :: symRange (lo + 1) n := by
  simp only [symRange, List.range_succ_eq_map, List.map_cons, List.map_map, Nat.add_zero]
  congr 1
  refine List.map_congr_left fun i _ => ?_
  simp only [Function.comp_apply, Nat.succ_eq_add_one, Nat.add_right_comm, Nat.add_assoc]

/-- A symbol's place where SYMS goes on with a run of symbols: in the run, or after it. -/
theorem symPlace_symRange_append {lo n : Nat} (h : lo + n ≤ 512) (s : Nat) (rest : List (BitVec 9)) :
    symPlace s (symRange lo n ++ rest) =
      if lo ≤ s ∧ s < lo + n then some (s - lo) else (symPlace s rest).map (· + n) := by
  induction n generalizing lo with
  | zero =>
    rw [if_neg (by omega)]
    exact (Option.map_id_apply ..).symm
  | succ n ih =>
    have hfirst : (BitVec.ofNat 9 lo).toNat = lo := by
      rw [BitVec.toNat_ofNat]
      omega
    rw [symRange_succ, List.cons_append, symPlace, hfirst, ih (by omega)]
    by_cases hs : lo = s
    · rw [if_pos hs, if_pos (by omega), hs, Nat.sub_self]
    · rw [if_neg hs]
      by_cases hrun : lo + 1 ≤ s ∧ s < lo + 1 + n
      · rw [if_pos hrun, if_pos (by omega), Option.map_some, show s - (lo + 1) + 1 = s - lo by omega]
      · rw [if_neg hrun, if_neg (by omega), Option.map_map]
        rfl

theorem symBits_eq {t : Table} {s k l v : Nat} (hplace : symPlace s t.syms = some k)
    (hcode : codeAt (t.count.map BitVec.toNat) 1 0 k = some (l, v)) : symBits t s = codeBits l v := by
  simp only [symBits, hplace, hcode]

/-- The places of FIXED_LL_T's symbols: those of 7 bits first, then those of 8, then those of 9 (R127). -/
theorem symPlace_fixedLL (v : Nat) :
    symPlace v fixedLL.syms =
      if 256 ≤ v ∧ v < 280 then some (v - 256) else if v < 144 then some (v + 24)
      else if 280 ≤ v ∧ v < 288 then some (v - 280 + 168) else if 144 ≤ v ∧ v < 256 then some (v - 144 + 176)
      else none := by
  rw [fixedLL, ← List.append_nil (symRange 144 112)]
  simp only [List.append_assoc]
  rw [symPlace_symRange_append (by omega), symPlace_symRange_append (by omega),
    symPlace_symRange_append (by omega), symPlace_symRange_append (by omega)]
  simp only [apply_ite (Option.map _), Option.map_some, symPlace, Option.map_none]
  simp

/-- The codes of FIXED_LL_T by place (R121). -/
theorem codeAt_fixedLL (k : Nat) :
    codeAt (fixedLL.count.map BitVec.toNat) 1 0 k =
      if k < 24 then some (7, k) else if k < 176 then some (8, 48 + (k - 24))
      else if k < 288 then some (9, 400 + (k - 176)) else none := by
  have h8 : k - 24 < 152 ↔ k < 176 := by omega
  have h9 : k - 176 < 112 ↔ k < 288 := by omega
  simp [fixedLL, codeAt, h8, h9, Nat.sub_sub]

theorem symPlace_fixedD {v : Nat} (h : v < 32) : symPlace v fixedD.syms = some v := by
  rw [fixedD, ← List.append_nil (symRange 0 32), symPlace_symRange_append (by omega), if_pos (by omega), Nat.sub_zero]

theorem codeAt_fixedD {k : Nat} (h : k < 32) : codeAt (fixedD.count.map BitVec.toNat) 1 0 k = some (5, k) := by
  simp [fixedD, codeAt, h]

/-- Settles O6: the tables are Build's, and each range of symbols is a run of places with codes of one length. -/
theorem fixedCodes : Obligations.FixedCodes := by
  refine ⟨Machine.fixedLL_eq_buildTable, Machine.fixedD_eq_buildTable, fun v hv => ?_, fun v hlo hhi => ?_,
    fun v hlo hhi => ?_, fun v hlo hhi => ?_, fun v hv => ?_⟩
  · have hplace : symPlace v fixedLL.syms = some (v + 24) := by
      rw [symPlace_fixedLL, if_neg (by omega), if_pos (by omega)]
    rw [symBits_eq hplace (by rw [codeAt_fixedLL, if_neg (by omega), if_pos (by omega)]), Nat.add_sub_cancel]
  · have hplace : symPlace v fixedLL.syms = some (v - 144 + 176) := by
      rw [symPlace_fixedLL, if_neg (by omega), if_neg (by omega), if_neg (by omega), if_pos (by omega)]
    rw [symBits_eq hplace (by rw [codeAt_fixedLL, if_neg (by omega), if_neg (by omega), if_pos (by omega)]),
      Nat.add_sub_cancel]
  · have hplace : symPlace v fixedLL.syms = some (v - 256) := by
      rw [symPlace_fixedLL, if_pos (by omega)]
    exact symBits_eq hplace (by rw [codeAt_fixedLL, if_pos (by omega)])
  · have hplace : symPlace v fixedLL.syms = some (v - 280 + 168) := by
      rw [symPlace_fixedLL, if_neg (by omega), if_neg (by omega), if_pos (by omega)]
    rw [symBits_eq hplace (by rw [codeAt_fixedLL, if_neg (by omega), if_pos (by omega)]),
      show 48 + (v - 280 + 168 - 24) = 0xC0 + (v - 280) by omega]
  · exact symBits_eq (symPlace_fixedD (by omega)) (codeAt_fixedD (by omega))

end Sys2Proof
end

section
/-! PROOF. EOI, PUSH and the plain register writes: the cases of R103 and R105, and the bits that R107's writes keep. -/

namespace Sys2Proof.Machine

section
variable {s : State} (b : Byte)

theorem execPush_running (hr : s.top = .running) : execPush b s = .next (pushRunning b s) := by
  simp only [execPush, hr]

theorem execPush_stopped (hr : s.top ≠ .running) : execPush b s = .next { s with inDrop := true } := by
  unfold execPush
  split
  · exact absurd ‹_› hr
  all_goals rfl

theorem pushRunning_afterEoi (he : s.eoiSeen = true) : pushRunning b s = s.stopped 8 26 :=
  if_pos he

theorem pushRunning_full (he : s.eoiSeen = false) (hfull : s.inp.fifo.length = s.cfg.inDepth) :
    pushRunning b s = s.stopped 8 25 := by
  have hin : s.inFull = true := by rw [inFull_eq, decide_eq_true hfull]
  rw [pushRunning, if_neg (by simp [he]), if_pos hin]
  rfl

theorem pushRunning_space (he : s.eoiSeen = false) (hspace : s.inp.fifo.length ≠ s.cfg.inDepth) :
    pushRunning b s = { s with inp := { s.inp with fifo := s.inp.fifo ++ [b] } } := by
  have hin : s.inFull = false := by rw [inFull_eq, decide_eq_false hspace]
  rw [pushRunning, if_neg (by simp [he]), if_neg (by simp [hin])]

end

/-- Settles O30: EOI by STATE, PUSH by STATE, EOI_SEEN and IN_FIFO's level, and each register write as its row's meaning. -/
theorem eoiPushAndRegisterWrites : Obligations.EoiPushAndRegisterWrites := by
  refine ⟨fun s => ⟨fun hr => ?_, fun hr => ?_⟩, fun b s => ⟨execPush_stopped b, fun hr he => ?_, fun hr he hf => ?_,
    fun hr he hf => ?_⟩, fun v s => ⟨⟨v.setWidth 2, BitVec.toNat_setWidth 2 v, rfl⟩, rfl, rfl⟩⟩
  · rw [exec_eoi, execEoi_eq, if_pos hr]
  · rw [exec_eoi, execEoi_eq, if_neg hr]
  · rw [exec_push, execPush_running b hr, pushRunning_afterEoi b he]
  · rw [exec_push, execPush_running b hr, pushRunning_full b he hf]
  · rw [exec_push, execPush_running b hr, pushRunning_space b he hf]

end Sys2Proof.Machine
end

section
/-! PROOF. The zlib header's two bytes and its four checks (R111, R112), and the closed form of the Adler-32 sums over any
emitted bytes (R114, R115). -/

namespace Sys2Proof.Machine

/-! ## The checks of the header -/

section
variable {s : State} (k : State → State)

theorem zlibChecks_badFcheck (h : (256 * s.zl.cmf.toNat + s.zl.flg.toNat) % 31 ≠ 0) :
    zlibChecks s k = s.stopped 1 1 :=
  if_pos (by rwa [Nat.mul_comm])

variable (hf : (256 * s.zl.cmf.toNat + s.zl.flg.toNat) % 31 = 0)
include hf

theorem zlibChecks_goodFcheck :
    zlibChecks s k =
      if s.zl.cmf.toNat % 16 ≠ 8 then s.stopped 6 2
      else if 7 < s.zl.cmf.toNat / 16 then s.stopped 6 3
      else if s.zl.flg.getLsbD 5 then s.stopped 6 4
      else k s :=
  if_neg (by rw [Nat.mul_comm, hf]; exact not_not.2 rfl)

theorem zlibChecks_badCm (hcm : s.zl.cmf.toNat % 16 ≠ 8) : zlibChecks s k = s.stopped 6 2 := by
  rw [zlibChecks_goodFcheck k hf, if_pos hcm]

variable (hcm : s.zl.cmf.toNat % 16 = 8)
include hcm

theorem zlibChecks_badCinfo (hci : ¬ s.zl.cmf.toNat / 16 ≤ 7) : zlibChecks s k = s.stopped 6 3 := by
  rw [zlibChecks_goodFcheck k hf, if_neg (not_not.2 hcm), if_pos (Nat.lt_of_not_le hci)]

variable (hci : s.zl.cmf.toNat / 16 ≤ 7)
include hci

theorem zlibChecks_fdict (hd : s.zl.flg.getLsbD 5 = true) : zlibChecks s k = s.stopped 6 4 := by
  rw [zlibChecks_goodFcheck k hf, if_neg (not_not.2 hcm), if_neg (Nat.not_lt.2 hci), if_pos hd]

theorem zlibChecks_pass (hd : s.zl.flg.getLsbD 5 = false) : zlibChecks s k = k s := by
  rw [zlibChecks_goodFcheck k hf, if_neg (not_not.2 hcm), if_neg (Nat.not_lt.2 hci), if_neg (ne_true_of_eq_false hd)]

end

/-- FLG's step writes the byte and then makes the checks (R111). -/
theorem exec_zhdrFlg_running (v : Byte) {s : State} (hr : s.top = .running) :
    exec (.zhdrFlg v) s =
      .next (zlibChecks { s.took 8 with zl := { s.zl with flg := v } } fun u => u.into .bhdr) :=
  (exec_zhdrFlg v s).trans (State.inf_running _ hr)

/-- Settles O14: CMF's step is its write, and FLG's step is its write and the chain of R112's checks, case by case. -/
theorem zlibHeader : Obligations.ZlibHeader := by
  refine ⟨⟨fun v s hs => (exec_zhdrCmf v s).trans (State.inf_running _ hs.1), fun v s hs hf hcm hci hd => ?_⟩,
    fun v s hs => ?_⟩
  · rw [exec_zhdrFlg_running v hs.1]
    exact congrArg _ (zlibChecks_pass _ hf hcm hci hd)
  · intro t fcheck cm cinfo
    rw [exec_zhdrFlg_running v hs.1]
    exact ⟨fun hf => congrArg _ (zlibChecks_badFcheck _ hf), fun hf hcm => congrArg _ (zlibChecks_badCm _ hf hcm),
      fun hf hcm hci => congrArg _ (zlibChecks_badCinfo _ hf hcm hci),
      fun hf hcm hci hd => congrArg _ (zlibChecks_fdict _ hf hcm hci hd)⟩

/-! ## The Adler-32 sums in closed form -/

/-- The bytes, each times the number of bytes from it to the end: what S2 sums besides the number of bytes (R115). -/
def adlerWeighted (bs : List Byte) : Nat :=
  ((List.range bs.length).map fun i => (bs.length - i) * (bs.getD i 0).toNat).sum

theorem adlerWeighted_cons (b : Byte) (bs : List Byte) :
    adlerWeighted (b :: bs) = (bs.length + 1) * b.toNat + adlerWeighted bs := by
  simp [adlerWeighted, List.range_succ_eq_map, Function.comp_def]

/-- A byte more at the end raises every weight by one. -/
theorem adlerWeighted_append_singleton (bs : List Byte) (b : Byte) :
    adlerWeighted (bs ++ [b]) = adlerWeighted bs + (bs.map BitVec.toNat).sum + b.toNat := by
  induction bs with
  | nil => simp [adlerWeighted]
  | cons c bs ih =>
    simp only [List.cons_append, adlerWeighted_cons, ih, List.length_append, List.length_singleton, List.map_cons,
      List.sum_cons]
    ring

/-- The sums are the same whatever OUT_COUNT holds, so `Output.emitted_emits` gives them at any count. -/
theorem Output.emitted_sums (o : Output) (b : Byte) :
    (o.emitted b).s1.toNat = (o.s1.toNat + b.toNat) % 65521 ∧
    (o.emitted b).s2.toNat = (o.s2.toNat + (o.emitted b).s1.toNat) % 65521 :=
  have h := Output.emitted_emits { o with count := 0 } b (show (0 : Word) ≠ 0xFFFFFFFF by decide)
  ⟨h.s1, h.s2⟩

/-- Settles O36, by induction on the bytes from the last one back: S2 grows by the new S1, and the weighted sum by the
bytes so far and the new one. -/
theorem adlerLaw : Obligations.AdlerLaw := by
  intro bs o h1 h2
  change (bs.foldl Output.emitted o).s1.toNat = _ ∧
    (bs.foldl Output.emitted o).s2.toNat = (bs.length + adlerWeighted bs) % 65521
  induction bs using List.reverseRecOn with
  | nil => simp [h1, h2, adlerWeighted]
  | append_singleton bs b ih =>
    obtain ⟨ih1, ih2⟩ := ih
    obtain ⟨hs1, hs2⟩ := (bs.foldl Output.emitted o).emitted_sums b
    rw [hs1] at hs2
    simp only [List.foldl_append, List.foldl_cons, List.foldl_nil, hs1, hs2, ih1, ih2, adlerWeighted_append_singleton,
      List.map_append, List.sum_append, List.map_singleton, List.sum_singleton, List.length_append,
      List.length_singleton]
    omega

end Sys2Proof.Machine
end

section
/-! PROOF. The rows of a stored block, LEN, NLEN and the bytes (R119, R120), and the rows that end a block or raise at a
symbol's last code bit (R139, R206, R207). -/

namespace Sys2Proof.Machine

/-! ## NLEN -/

/-- NLEN is LEN's ones' complement where the two add up to all ones (R119). -/
theorem eq_not_iff_toNat_add (len n : BitVec 16) : n = ~~~len ↔ len.toNat + n.toNat = 65535 := by
  have hlen := len.isLt
  rw [← BitVec.toNat_inj, BitVec.toNat_not]
  omega

/-- NLEN's step takes its bits and then looks at LEN (R119). -/
theorem exec_nlen_running (n : BitVec 16) {s : State} (hr : s.top = .running) :
    exec (.storedHdr (.nlen n)) s =
      .next
        (if s.blk.storedRem.toNat + n.toNat ≠ 65535 then (s.took 16).stopped 5 6
        else if s.blk.storedRem = 0 then (s.took 16).blockOver
        else (s.took 16).into .storedCopy) := by
  rw [exec_storedHdr, execStoredHdr, State.inf_running _ hr]
  simp only [ne_eq, ← eq_not_iff_toNat_add]
  rfl

/-! ## A stored byte -/

/-- What follows a stored byte: the count, and the block's end after the last one (R120). -/
def State.storedOff (s : State) : State :=
  let t : State := { s with blk := { s.blk with storedRem := BitVec.ofNat 16 (s.blk.storedRem.toNat - 1) } }
  if s.blk.storedRem.toNat - 1 = 0 then t.blockOver else t

/-- A stored byte that raises nothing: emitted, and counted off (R120). -/
theorem exec_storedByte_emitted {s : State} (hr : s.top = .running) (hc : s.canEmit) (hm : s.mayEmit) (b : Byte) :
    exec (.storedByte b) s = .next (State.storedOff { s.took 8 with out := s.out.emitted b }) := by
  rw [exec_storedByte, execStoredByte, State.infEmit_space _ hr hc]
  exact congrArg _ (State.emit_mayEmit (s := s.took 8) b State.storedOff hm)

/-- Where a byte is left to copy, the count of R120 does not wrap. -/
theorem State.storedOff_eq {s : State} (hrem : 1 ≤ s.blk.storedRem.toNat) :
    s.storedOff =
      let t : State := { s with blk := { s.blk with storedRem := s.blk.storedRem - 1 } }
      if s.blk.storedRem = 1 then t.blockOver else t := by
  have hcount : BitVec.ofNat 16 (s.blk.storedRem.toNat - 1) = s.blk.storedRem - 1 := by bv_omega
  have hlast : s.blk.storedRem.toNat - 1 = 0 ↔ s.blk.storedRem = 1 := by bv_omega
  simp only [State.storedOff, hcount, hlast]

/-- Settles O16: LEN's step is its write, NLEN's is the choice of R119, and a byte is emitted and counted off. -/
theorem storedBlockRows : Obligations.StoredBlockRows := by
  refine ⟨⟨fun v s hs => ?_, fun n s hs => ?_⟩, fun b s hs hc hm hrem => ?_⟩
  · rw [exec_storedHdr, execStoredHdr]
    exact State.inf_running _ hs.1
  · rw [exec_nlen_running n hs.1]
    refine ⟨fun hbad => ?_, fun hsum hzero => ?_, fun hsum hsome => ?_⟩
    · rw [if_pos hbad]
    · rw [if_neg (not_not.2 hsum), if_pos hzero]
    · rw [if_neg (not_not.2 hsum), if_neg hsome]
  · refine ⟨s.out.emitted b, s.out.emitted_emits b hm.2, ?_⟩
    rw [exec_storedByte_emitted hs.1 hc hm]
    exact congrArg _ (State.storedOff_eq hrem)

/-! ## End of block, and the reserved symbols -/

/-- Settles O20: each row's last code bit is consumed, and then the block ends or the error is recorded. -/
theorem endOfBlockAndReserved : Obligations.EndOfBlockAndReserved := by
  refine ⟨fun s hs => ?_, fun x s hs => ⟨?_, ?_⟩⟩
  · rw [exec_eob]
    exact State.inf_running _ hs.1
  · rw [exec_llReserved]
    exact State.inf_running _ hs.1
  · rw [exec_dReserved]
    exact State.inf_running _ hs.1

end Sys2Proof.Machine
end


section
/-! PROOF. Build's table symbol by symbol, the Kraft sum of R123 in closed form, and the code that any 15 bits begin
with when the set is complete (R121 to R123, R125, R126). -/

namespace Sys2Proof

/-! ## The symbols in Build's order -/

/-- The symbols of one length are those a scan of the lengths finds (R122). -/
theorem symsOfLen_eq (l s : Nat) (lens : List (BitVec 4)) :
    symsOfLen l s lens =
      ((List.range lens.length).filter fun i => (lens.getD i 0).toNat == l).map fun i => BitVec.ofNat 9 (s + i) := by
  induction lens generalizing s with
  | nil => rfl
  | cons x xs ih =>
    have hplace : (fun i => BitVec.ofNat 9 (s + i)) ∘ Nat.succ = fun i => BitVec.ofNat 9 (s + 1 + i) := by
      funext i
      rw [Function.comp_apply, Nat.succ_eq_one_add, Nat.add_assoc]
    have hlen : (fun i => (List.getD (x :: xs) i 0).toNat == l) ∘ Nat.succ = fun i => (xs.getD i 0).toNat == l := rfl
    rw [symsOfLen, ih, List.length_cons, List.range_succ_eq_map, List.filter_cons, List.filter_map, hlen]
    by_cases hx : x.toNat = l <;> simp [hx, hplace]

/-- The order of Build (R122): the shorter code first, and of codes of one length the lower symbol. -/
def CodedBefore (lens : List (BitVec 4)) (x y : BitVec 9) : Prop :=
  (lens.getD x.toNat 0).toNat < (lens.getD y.toNat 0).toNat ∨
    lens.getD x.toNat 0 = lens.getD y.toNat 0 ∧ x.toNat < y.toNat

theorem CodedBefore.ne {lens : List (BitVec 4)} {x y : BitVec 9} (h : CodedBefore lens x y) : x ≠ y := by
  rintro rfl
  rcases h with h | h
  · exact Nat.lt_irrefl _ h
  · exact Nat.lt_irrefl _ h.2

section
variable {lens : List (BitVec 4)} (hlens : lensOk lens)
include hlens

theorem toNat_symbol {i : Nat} (hi : i < lens.length) : (BitVec.ofNat 9 i).toNat = i :=
  Nat.mod_eq_of_lt (Nat.lt_trans (Nat.lt_of_lt_of_le hi hlens) (by decide))

theorem mem_symsOfLen {l : Nat} {x : BitVec 9} :
    x ∈ symsOfLen l 0 lens ↔ x.toNat < lens.length ∧ (lens.getD x.toNat 0).toNat = l := by
  rw [symsOfLen_eq, List.mem_map]
  simp only [List.mem_filter, List.mem_range, beq_iff_eq, Nat.zero_add]
  constructor
  · rintro ⟨i, ⟨hi, hl⟩, rfl⟩
    rw [toNat_symbol hlens hi]
    exact ⟨hi, hl⟩
  · exact fun h => ⟨x.toNat, h, (by rw [BitVec.ofNat_toNat, BitVec.setWidth_eq])⟩

/-- The symbols of one length are in rising order (R122). -/
theorem symsOfLen_pairwise (l : Nat) : (symsOfLen l 0 lens).Pairwise fun x y => x.toNat < y.toNat := by
  rw [symsOfLen_eq, List.pairwise_map]
  refine (List.pairwise_lt_range.filter _).imp_of_mem fun {i j} hi hj hlt => ?_
  have hi' := List.mem_range.1 (List.mem_of_mem_filter hi)
  have hj' := List.mem_range.1 (List.mem_of_mem_filter hj)
  rwa [Nat.zero_add, Nat.zero_add, toNat_symbol hlens hi', toNat_symbol hlens hj']

/-- Build lists the symbols of the alphabet whose length is not 0 (R122). -/
theorem mem_buildTable_syms {x : BitVec 9} :
    x ∈ (buildTable lens).syms ↔ x.toNat < lens.length ∧ lens.getD x.toNat 0 ≠ 0 := by
  have hused : ∀ v : BitVec 4, v.toNat ∈ codeLens ↔ v ≠ 0 := by decide
  simp only [buildTable, List.mem_flatMap, mem_symsOfLen hlens, ← hused]
  exact ⟨fun ⟨l, hl, hx, e⟩ => ⟨hx, e ▸ hl⟩, fun ⟨hx, hl⟩ => ⟨_, hl, hx, rfl⟩⟩

/-- Build's order is by length and then by symbol (R122). -/
theorem buildTable_syms_pairwise : (buildTable lens).syms.Pairwise (CodedBefore lens) := by
  rw [buildTable, List.pairwise_flatMap]
  refine ⟨fun l _ => (symsOfLen_pairwise hlens l).imp_of_mem fun hx hy hlt => .inr ⟨?_, hlt⟩, ?_⟩
  · exact BitVec.eq_of_toNat_eq (((mem_symsOfLen hlens).1 hx).2.trans ((mem_symsOfLen hlens).1 hy).2.symm)
  · have hrise : codeLens.Pairwise (· < ·) := by decide
    refine hrise.imp fun hlt x hx y hy => .inl ?_
    rwa [((mem_symsOfLen hlens).1 hx).2, ((mem_symsOfLen hlens).1 hy).2]

theorem buildTable_syms_nodup : (buildTable lens).syms.Nodup := (buildTable_syms_pairwise hlens).imp CodedBefore.ne

end

/-! ## The Kraft sum -/

/-- From length l on, `left` is what the code space used up to the last length leaves, if it leaves that much (R123). -/
theorem Table.kraftLeft_drop (t : Table) (m : Nat) {l y : Nat} (hl : l + m = t.count.length)
    (hy : y + t.used l = 2 ^ l) :
    kraftLeft ((t.count.map BitVec.toNat).drop l) y =
      if t.used (l + m) ≤ 2 ^ (l + m) then some (2 ^ (l + m) - t.used (l + m)) else none := by
  induction m generalizing l y with
  | zero =>
    rw [List.drop_of_length_le (by rw [List.length_map]; omega), kraftLeft, Nat.add_zero, if_pos (by omega)]
    exact congrArg some (by omega)
  | succ m ih =>
    have hused : t.used (l + 1) = 2 * t.used l + t.countOf (l + 1) := rfl
    have hpow : 2 ^ (l + 1) = 2 * 2 ^ l := Nat.pow_succ'
    rw [Table.counts_drop (by omega), kraftLeft, show l + (m + 1) = l + 1 + m by omega]
    split_ifs with hover hle
    · have hmore := t.used_mul_le (l + 1) m
      have hlt : 2 ^ (l + 1) * 2 ^ m < t.used (l + 1) * 2 ^ m :=
        Nat.mul_lt_mul_of_pos_right (by omega) (Nat.two_pow_pos m)
      rw [← Nat.pow_add] at hlt
      exact absurd hle (by omega)
    · rfl
    · rw [ih (by omega) (by omega), if_pos ‹_›]
    · rw [ih (by omega) (by omega), if_neg ‹_›]

/-- `left` over all lengths (R123). -/
theorem Table.left_eq {t : Table} (h : t.count.length = 15) :
    t.left = if t.used 15 ≤ 32768 then some (32768 - t.used 15) else none :=
  t.kraftLeft_drop 15 (l := 0) (y := 1) (by omega) rfl

theorem Table.left_eq_none_iff {t : Table} (h : t.count.length = 15) : t.left = none ↔ 32768 < t.used 15 := by
  rw [Table.left_eq h]
  split_ifs with hle
  · simp [hle]
  · simp [Nat.not_le.1 hle]

theorem Table.left_eq_some_iff {t : Table} (h : t.count.length = 15) (n : Nat) :
    t.left = some n ↔ t.used 15 + n = 32768 := by
  rw [Table.left_eq h]
  split_ifs with hle
  · rw [Option.some.injEq]
    omega
  · simp only [false_iff]
    omega

/-- How many of the 2^l strings of l bits begin with a given code of length x. -/
def codeShare (l : Nat) (x : BitVec 4) : Nat := if 1 ≤ x.toNat ∧ x.toNat ≤ l then 2 ^ (l - x.toNat) else 0

theorem codeShare_succ (l : Nat) (x : BitVec 4) :
    codeShare (l + 1) x = 2 * codeShare l x + if x.toNat = l + 1 then 1 else 0 := by
  unfold codeShare
  rcases Nat.lt_trichotomy x.toNat (l + 1) with h | h | h
  · rw [if_neg h.ne, Nat.succ_sub (Nat.le_of_lt_succ h), Nat.pow_succ']
    split_ifs <;> omega
  · rw [if_pos (by omega), if_neg (by omega), if_pos h, h, Nat.sub_self]
    rfl
  · rw [if_neg (by omega), if_neg (by omega), if_neg (by omega)]

theorem sum_codeShare_succ (lens : List (BitVec 4)) (l : Nat) :
    (lens.map (codeShare (l + 1))).sum = 2 * (lens.map (codeShare l)).sum + lenCount lens (l + 1) := by
  induction lens with
  | nil => rfl
  | cons x xs ih =>
    simp only [List.map_cons, List.sum_cons, ih, codeShare_succ, lenCount, List.countP_cons, beq_iff_eq]
    omega

/-- The code space that Build's counts use is the sum over the symbols (R121, R123). -/
theorem buildTable_used {lens : List (BitVec 4)} (hlens : lensOk lens) {l : Nat} (hl : l ≤ 15) :
    (buildTable lens).used l = (lens.map (codeShare l)).sum := by
  induction l with
  | zero =>
    have hnone : ∀ x : BitVec 4, codeShare 0 x = 0 := by decide
    exact (List.sum_eq_zero (by simp [hnone])).symm
  | succ l ih => rw [Table.used, ih (Nat.le_of_lt hl), buildTable_countOf hlens hl, sum_codeShare_succ]

theorem codeShare_maxBits (x : BitVec 4) : codeShare 15 x = if x = 0 then 0 else 2 ^ (15 - x.toNat) := by
  revert x
  decide

/-- Settles O8: Build's table by its parts, and `left` in closed form with the code space that the counts use. -/
theorem buildAndKraftCheck : Obligations.BuildAndKraftCheck := by
  refine ⟨fun lens hlens => ⟨fun l h1 h15 => ?_, fun x => mem_buildTable_syms hlens, buildTable_syms_pairwise hlens,
    rfl, rfl⟩, fun lens hlens => ?_⟩
  · obtain ⟨m, rfl⟩ := Nat.exists_eq_succ_of_ne_zero (Nat.one_le_iff_ne_zero.1 h1)
    exact buildTable_countOf hlens h15
  · have hsum := buildTable_used hlens (Nat.le_refl 15)
    rw [funext codeShare_maxBits] at hsum
    dsimp only
    rw [← hsum]
    exact ⟨Table.left_eq_none_iff rfl, Table.left_eq_some_iff rfl⟩

/-! ## Bits as a number -/

theorem natBits_bitsVal (bits : List Bool) : natBits bits.length (bitsVal bits) = bits := by
  induction bits with
  | nil => rfl
  | cons b bs ih =>
    rw [List.length_cons, natBits, bitsVal, Nat.add_mul_mod_self_left, Nat.add_mul_div_left _ _ Nat.two_pos]
    cases b <;> simpa using ih

theorem bitsVal_lt (bits : List Bool) : bitsVal bits < 2 ^ bits.length := by
  induction bits with
  | nil => exact Nat.one_pos
  | cons b bs ih =>
    have hb := b.toNat_lt
    rw [bitsVal, List.length_cons, Nat.pow_succ']
    omega

/-- The value of the first l bits, read as the bits of a code are (R60). -/
def firstVal (bits : List Bool) (l : Nat) : Nat := bitsVal (bits.take l).reverse

theorem firstVal_lt (bits : List Bool) {l : Nat} (hl : l ≤ bits.length) : firstVal bits l < 2 ^ l := by
  have := bitsVal_lt (bits.take l).reverse
  rwa [List.length_reverse, List.length_take_of_le hl] at this

theorem firstVal_succ {bits : List Bool} {l : Nat} (hl : l < bits.length) :
    firstVal bits (l + 1) = bits[l].toNat + 2 * firstVal bits l := by
  rw [firstVal, List.take_add_one, List.getElem?_eq_getElem hl, List.reverse_append]
  rfl

theorem codeBits_firstVal {bits : List Bool} {l : Nat} (hl : l ≤ bits.length) :
    codeBits l (firstVal bits l) = bits.take l := by
  have := natBits_bitsVal (bits.take l).reverse
  rw [List.length_reverse, List.length_take_of_le hl] at this
  rw [codeBits, firstVal, this, List.reverse_reverse]

/-! ## A complete set -/

/-- Where the first n bits are below the code space used, they begin with a code: it ends at the first such length
(R121). -/
theorem Table.exists_code (t : Table) {bits : List Bool} {n : Nat} (hn : n ≤ bits.length)
    (h : firstVal bits n < t.used n) :
    ∃ m i, m < n ∧ i < t.countOf (m + 1) ∧ codeBits (m + 1) (2 * t.used m + i) = bits.take (m + 1) := by
  induction n with
  | zero => exact absurd h (Nat.not_lt_zero _)
  | succ n ih =>
    by_cases hearly : firstVal bits n < t.used n
    · obtain ⟨m, i, hm, hi, hcode⟩ := ih (Nat.le_of_lt hn) hearly
      exact ⟨m, i, Nat.lt_succ_of_lt hm, hi, hcode⟩
    · have hval := firstVal_succ hn
      rw [Table.used] at h
      refine ⟨n, firstVal bits (n + 1) - 2 * t.used n, Nat.lt_succ_self n, by omega, ?_⟩
      rw [Nat.add_sub_cancel' (by omega), codeBits_firstVal hn]

/-- Bits after those that raise INVALID_CODE change nothing (R125). -/
theorem decodeBits_append_invalid {t : Table} {bits more : List Bool} {h h' : Hc}
    (hd : decodeBits t bits h = .error (.invalidCode h')) :
    decodeBits t (bits ++ more) h = .error (.invalidCode h') := by
  induction bits generalizing h with
  | nil => cases hd
  | cons b bs ih =>
    rw [decodeBits] at hd
    rw [List.cons_append, decodeBits]
    cases hb : codeBit t h b <;> simp_all

/-- Places of different lengths are different (R50). -/
theorem Table.place_inj {t : Table} {m i n j : Nat} (hi : i < t.countOf (m + 1)) (hj : j < t.countOf (n + 1))
    (h : t.upTo m + i = t.upTo n + j) : m = n ∧ i = j := by
  have hm := t.upTo_succ m
  have hn := t.upTo_succ n
  rcases Nat.lt_trichotomy m n with hlt | rfl | hlt
  · have := t.upTo_mono (Nat.succ_le_of_lt hlt)
    rw [Nat.succ_eq_add_one] at this
    omega
  · exact ⟨rfl, by omega⟩
  · have := t.upTo_mono (Nat.succ_le_of_lt hlt)
    rw [Nat.succ_eq_add_one] at this
    omega

section
variable {lens : List (BitVec 4)} (hlens : lensOk lens)
include hlens

/-- The symbol at place i among those of length m + 1 has that length, and its canonical code is the i-th of that length
(R121, R122). -/
theorem canonicalCode_of_place {m i : Nat} {x : BitVec 9} (hi : i < (buildTable lens).countOf (m + 1))
    (hx : (buildTable lens).syms[(buildTable lens).upTo m + i]? = some x) :
    (lens.getD x.toNat 0).toNat = m + 1 ∧ canonicalCode lens x.toNat = 2 * (buildTable lens).used m + i := by
  obtain ⟨hs, h0⟩ := (mem_buildTable_syms hlens).1 (List.mem_of_getElem? hx)
  have hlen : lens[x.toNat]? = some (lens.getD x.toNat 0) := by simp [hs]
  generalize hy : lens.getD x.toNat 0 = y at *
  obtain ⟨n, hn⟩ : ∃ n, y.toNat = n + 1 := Nat.exists_eq_succ_of_ne_zero fun e => h0 (BitVec.eq_of_toNat_eq e)
  have hn15 : n < 15 := by have := y.isLt; omega
  have hplace := buildTable_place hlens hlen hn
  have hj : lenCount (lens.take x.toNat) (n + 1) < (buildTable lens).countOf (n + 1) :=
    (lenCount_take_lt hlen hn).trans_eq (buildTable_countOf hlens hn15).symm
  rw [BitVec.ofNat_toNat, BitVec.setWidth_eq, ← hx] at hplace
  obtain ⟨rfl, rfl⟩ := Table.place_inj hi hj
    ((List.getElem?_inj (List.getElem?_eq_some_iff.1 hx).1 (buildTable_syms_nodup hlens)).1 hplace.symm)
  exact ⟨hn, by simp only [canonicalCode, hy, hn, firstCode_eq hlens (Nat.le_of_lt hn15)]⟩

/-- A complete set's 15 bits begin with the canonical code of a symbol, which they decode to (R121, R126). -/
theorem exists_canonicalCode (hfull : (buildTable lens).left = some 0) {bits : List Bool} (hbits : 15 ≤ bits.length) :
    ∃ s rest, s < lens.length ∧ lens.getD s 0 ≠ 0 ∧
      codeBits (lens.getD s 0).toNat (canonicalCode lens s) ++ rest = bits := by
  obtain ⟨m, i, -, hi, hcode⟩ := (buildTable lens).exists_code hbits
    ((firstVal_lt bits hbits).trans_eq ((Table.left_eq_some_iff rfl 0).1 hfull).symm)
  have hplace : (buildTable lens).upTo m + i < (buildTable lens).syms.length := by
    have hup := (buildTable lens).upTo_succ m
    have hle := (buildTable lens).upTo_le_total (m + 1)
    have htotal := (buildTable_formed hlens (by decide)).total
    omega
  have hx := List.getElem?_eq_getElem hplace
  obtain ⟨hs, h0⟩ := (mem_buildTable_syms hlens).1 (List.mem_of_getElem? hx)
  obtain ⟨hlen, hcanon⟩ := canonicalCode_of_place hlens hi hx
  refine ⟨_, bits.drop (m + 1), hs, h0, ?_⟩
  rw [hlen, hcanon, hcode, List.take_append_drop]

/-- A complete set raises INVALID_CODE on no bits: with 15 more bits they begin with a code (R126). -/
theorem decodeCode_ne_invalid (hfull : (buildTable lens).left = some 0) (bits : List Bool) (h : Hc) :
    decodeCode (buildTable lens) Hc.zero bits ≠ .error (.invalidCode h) := by
  intro hd
  have hmore : decodeCode (buildTable lens) Hc.zero (bits ++ List.replicate 15 false) = .error (.invalidCode h) :=
    decodeBits_append_invalid hd
  obtain ⟨s, rest, hs, h0, hcode⟩ := exists_canonicalCode hlens hfull (bits := bits ++ List.replicate 15 false)
    (by rw [List.length_append, List.length_replicate]; omega)
  rw [← hcode, canonicalCodesDecode lens s rest hlens (by rw [hfull]; exact Option.some_ne_none 0) hs h0] at hmore
  cases hmore

end

/-- Settles O5: the first length at which the bits are below the code space used ends a code, and O4's round trip
decodes it; a second code at the front would decode to its own symbol. -/
theorem completeCodesDecode : Obligations.CompleteCodesDecode := by
  intro lens bits hlens hfull
  have hleft : (buildTable lens).left ≠ none := by rw [hfull]; exact Option.some_ne_none 0
  refine ⟨fun hbits => ?_, decodeCode_ne_invalid hlens hfull bits⟩
  obtain ⟨s, rest, hs, h0, hcode⟩ := exists_canonicalCode hlens hfull hbits
  have hdecode := canonicalCodesDecode lens s rest hlens hleft hs h0
  rw [hcode] at hdecode
  refine ⟨s, rest, hs, h0, hdecode, hcode, ?_, fun s' hs' h0' ⟨rest', hcode'⟩ => ?_⟩
  · have hlen := (lens.getD s 0).isLt
    rw [← hcode, List.length_append, codeBits, List.length_reverse, Machine.natBits_length]
    omega
  · have hdecode' := canonicalCodesDecode lens s' rest' hlens hleft hs' h0'
    rw [hcode', hdecode] at hdecode'
    cases hdecode'
    rfl

end Sys2Proof
end

section
/-! PROOF. A code bit that ends no code, as INF's turn (R125), and DYN_BUILD by what Build and Validate say of the two
sets (R122 to R124, R135). -/

namespace Sys2Proof

/-! ## A bit that ends no code -/

/-- The bit read is the low bit of the code (R125). -/
theorem or_bit_toNat (w : BitVec 16) (b : Bool) : (w ||| BitVec.ofNat 16 b.toNat).toNat = w.toNat ||| b.toNat := by
  cases b <;> exact BitVec.toNat_or ..

theorem or_bit_eq_ofNat (w : BitVec 16) (b : Bool) :
    w ||| BitVec.ofNat 16 b.toNat = BitVec.ofNat 16 (w.toNat ||| b.toNat) := by
  rw [← or_bit_toNat, BitVec.ofNat_toNat, BitVec.setWidth_eq]

theorem ofNat_shiftLeft_one (n : Nat) : BitVec.ofNat 16 n <<< 1 = BitVec.ofNat 16 (2 * n) := by
  apply BitVec.eq_of_toNat_eq
  rw [BitVec.toNat_shiftLeft, BitVec.toNat_ofNat, BitVec.toNat_ofNat, Nat.shiftLeft_eq]
  omega

section
variable {t : Table} {h : Hc} {b : Bool}
  (hge : h.first.toNat + t.countOf (h.len.toNat + 1) ≤ h.code.toNat ||| b.toNat)
include hge

theorem not_code_lt : ¬ (h.code ||| BitVec.ofNat 16 b.toNat).toNat < h.first.toNat + t.countOf (h.len.toNat + 1) := by
  rw [or_bit_toNat]
  exact Nat.not_lt.2 hge

/-- A bit at or above the codes of its length goes on where the table is not SINGLE and a longer code may follow
(R125). -/
theorem codeBit_more (hs : t.single = false) (hl : h.len.toNat + 1 < 15) :
    codeBit t h b =
      .more
        { code := BitVec.ofNat 16 (2 * (h.code.toNat ||| b.toNat))
          first := BitVec.ofNat 16 (2 * (h.first.toNat + t.countOf (h.len.toNat + 1)))
          index := BitVec.ofNat 9 (h.index.toNat + t.countOf (h.len.toNat + 1))
          len := BitVec.ofNat 4 (h.len.toNat + 1) } := by
  unfold codeBit
  dsimp only
  rw [if_neg (not_code_lt hge), if_neg (by rw [hs]; decide), if_neg (Nat.not_le.2 hl), or_bit_eq_ofNat,
    ofNat_shiftLeft_one, Nat.mul_comm 2 (_ + _)]

/-- It fails where the table is SINGLE or the bit is the 15th (R125). -/
theorem codeBit_invalid (hstop : t.single = true ∨ h.len.toNat + 1 = 15) :
    codeBit t h b =
      .invalid
        { h with
          code := BitVec.ofNat 16 (h.code.toNat ||| b.toNat)
          len := BitVec.ofNat 4 (h.len.toNat + 1) } := by
  unfold codeBit
  dsimp only
  rw [if_neg (not_code_lt hge), or_bit_eq_ofNat]
  rcases hstop with hs | hl
  · rw [if_pos hs]
  · rw [if_pos hl.ge, ite_self]

end

/-! ## The code space of a set without codes, and of one with one code -/

/-- From the longest code on, each bit doubles the code space used (R121). -/
theorem Table.used_add {t : Table} {l : Nat} (h : t.upTo l = t.total) (m : Nat) :
    t.used (l + m) = t.used l * 2 ^ m := by
  induction m with
  | zero => exact (Nat.mul_one _).symm
  | succ m ih =>
    have hup := t.upTo_succ (l + m)
    have hmono := t.upTo_mono (Nat.le_add_right l m)
    have hle := t.upTo_le_total (l + m + 1)
    rw [← Nat.add_assoc, Table.used, ih, show t.countOf (l + m + 1) = 0 by omega, Nat.pow_succ', Nat.mul_left_comm,
      Nat.add_zero]

section
variable {t : Table} {n : Nat} (hf : t.formed n)
include hf

theorem Table.formed.left_of_no_codes (h : t.syms = []) : t.left = some 32768 := by
  have htotal : t.upTo 0 = t.total := by rw [hf.total, h]; rfl
  have hused : t.used 15 = 0 := (t.used_add htotal 15).trans (Nat.zero_mul _)
  exact (Table.left_eq_some_iff hf.lengths _).2 (by rw [hused])

theorem Table.formed.left_of_one_code (h : t.syms.length = 1) (h1 : t.countOf 1 = 1) : t.left = some 16384 := by
  have htotal : t.upTo 1 = t.total := by rw [t.upTo_one, h1, hf.total, h]
  have hone : t.used 1 = 1 := (Nat.zero_add _).trans h1
  have hused : t.used 15 = 16384 := (t.used_add htotal 14).trans (by rw [hone]; rfl)
  exact (Table.left_eq_some_iff hf.lengths _).2 (by rw [hused])

end

/-! ## The contexts that read a code -/

section
variable {c : Ctx} {t : Table} {h : Hc} (hc : c = .clSym t h ∨ c = .llSym t h ∨ c = .dSym t h)
include hc

theorem Ctx.need_code (he : emptyStop t h = false) : c.need = 1 := by
  rcases hc with rfl | rfl | rfl
  · exact Machine.Ctx.need_clSym he
  · exact Machine.Ctx.need_llSym he
  · exact Machine.Ctx.need_dSym he

/-- What DecodeSym rejects, the context rejects (R97, R125). -/
theorem decode_code_error {bits : List Bool} {e : Reject} (hd : decodeCode t h bits = .error e) :
    decode c bits = .error e := by
  rcases hc with rfl | rfl | rfl <;> simp only [decode, hd, symTo]

end

theorem decodeCode_singleton {t : Table} {h : Hc} (he : emptyStop t h = false) (b : Bool) :
    decodeCode t h [b] = decodeBits t [b] h := by
  rw [decodeCode, he]
  exact if_neg (by decide)

end Sys2Proof

namespace Sys2Proof.Machine

theorem State.peek_one (s : State) : s.peek 1 = [s.inp.buf.getLsbD 0] := by
  rw [State.peek, natBits, natBits, BitVec.getLsbD, Nat.testBit_zero]
  rfl

section
variable {s : State} {c : Ctx} {t : Table} {h : Hc}
  (hc : c = .clSym t s.hc ∨ c = .llSym t s.hc ∨ c = .dSym t s.hc) (he : emptyStop t s.hc = false)
include hc he

/-- A code's context reads the low bit of BITBUF (R62, R125). -/
theorem decode_peek_code {e : Reject} (hd : decodeBits t [s.inp.buf.getLsbD 0] s.hc = .error e) :
    decode c (s.peek c.need) = .error e :=
  decode_code_error hc (by rw [Ctx.need_code hc he, s.peek_one, decodeCode_singleton he, hd])

variable (ha : s.agenda = []) (hr : s.ready 1) (hctx : s.ctx = some c)
include ha hr hctx

/-- A bit that DecodeSym goes on from is INF's turn (R125). -/
theorem step_codeMore (hb : codeBit t s.hc (s.inp.buf.getLsbD 0) = .more h) :
    step s = .next { s.took 1 with hc := h } := by
  have hd := decode_peek_code hc he (e := .more h) (by simp only [decodeBits, hb])
  have hturn := infStep_decode hr.1 hctx ((Ctx.need_code hc he).trans_le hr.2)
  exact (step_inf_nil ha).trans (hturn.trans (decodeAction_more hd))

/-- A bit that DecodeSym fails on is consumed by the turn that raises INVALID_CODE (R125, R214). -/
theorem step_codeInvalid (hb : codeBit t s.hc (s.inp.buf.getLsbD 0) = .invalid h) :
    step s = .next (State.stopped { s.took 1 with hc := h } 5 17) := by
  have hneed := Ctx.need_code hc he
  have hd := decode_peek_code hc he (e := .invalidCode h) (by simp only [decodeBits, hb])
  have hturn := (infStep_decode hr.1 hctx (hneed.trans_le hr.2)).trans (decodeAction_invalid hd)
  rw [hneed] at hturn
  exact (step_inf_nil ha).trans hturn

end

/-- An EMPTY distance table fails a decode before any bit (R125). -/
theorem step_emptyDist {s : State} (ha : s.agenda = []) (hr : s.top = .running) (hp : s.phase = .dist)
    (hempty : s.tabs.d.empty = true) (hlen : s.hc.len = 0) : step s = .next ((s.took 0).stopped 5 17) := by
  have hctx : s.ctx = some (.dSym s.tabs.d s.hc) := by simp only [State.ctx, hp]
  have hstop : emptyStop s.tabs.d s.hc = true := by simp [emptyStop, hempty, hlen]
  have hneed : (Ctx.dSym s.tabs.d s.hc).need = 0 := if_pos hstop
  have hd : decode (.dSym s.tabs.d s.hc) (s.peek (Ctx.dSym s.tabs.d s.hc).need) = .error (.invalidCode s.hc) :=
    decode_code_error (.inr (.inr rfl)) (if_pos hstop)
  have hturn := (infStep_decode hr hctx (hneed.trans_le (Nat.zero_le _))).trans (decodeAction_invalid hd)
  rw [hneed] at hturn
  exact (step_inf_nil ha).trans hturn

/-- Settles O12: INF's turn is R125's step on the low bit of BITBUF, which goes on or fails by the table and the bit's
number; an EMPTY table answers without a bit. -/
theorem codeBitStep : Obligations.CodeBitStep := by
  refine ⟨fun s c t ha hr hctx hc _ he => ?_, fun s => step_emptyDist⟩
  intro code len hge
  exact ⟨fun hs hl => step_codeMore hc he ha hr hctx (codeBit_more hge hs hl),
    fun hstop => step_codeInvalid hc he ha hr hctx (codeBit_invalid hge hstop)⟩

/-! ## The build of the distance table -/

/-- The table of the NDIST lengths after the first NLEN (R135). -/
def State.distTableBuilt (s : State) : Table :=
  buildTable ((s.blk.lens.drop s.blk.nlen.toNat).take s.blk.ndist.toNat)

theorem State.distTableBuilt_formed (s : State) : s.distTableBuilt.formed 63 :=
  buildTable_formed (Nat.le_trans (List.length_take_le ..) (Nat.le_of_lt_succ s.blk.ndist.isLt)) (by decide)

/-- s with D_T written. -/
def State.withD (s : State) (t : Table) : State := { s with tabs := { s.tabs with d := t } }

section
variable {t : Table} {allow : Bool}

theorem distException_empty (ha : allow = true) (h : t.syms = []) :
    distException allow t = some { t with empty := true } := by
  simp [distException, ha, h]

theorem distException_single (ha : allow = true) (h : t.syms.length = 1) (h1 : t.countOf 1 = 1) :
    distException allow t = some { t with single := true } := by
  simp [distException, ha, h, h1]

theorem distException_none
    (h : allow = false ∨ t.syms ≠ [] ∧ ¬ (t.syms.length = 1 ∧ t.countOf 1 = 1)) :
    distException allow t = none := by
  match he : distException allow t with
  | none => rfl
  | some t' =>
    obtain ⟨hallow, hshape⟩ := distException_cases he
    obtain ⟨hsyms, hone⟩ := h.resolve_left (by simp [hallow])
    rcases hshape with ⟨hnil, _⟩ | ⟨hlen, hcount, _⟩
    · exact absurd hnil hsyms
    · exact absurd ⟨hlen, hcount⟩ hone

end

section
variable {s : State} (k : State → State)

theorem State.buildD_complete (h : s.distTableBuilt.left = some 0) : s.buildD k = k (s.withD s.distTableBuilt) := by
  rcases s.buildD_cases k with ⟨h', _⟩ | ⟨_, e⟩ | ⟨n, h', _⟩
  · cases h.symm.trans h'
  · exact e
  · cases h.symm.trans h'

theorem State.buildD_oversubscribed (h : s.distTableBuilt.left = none) :
    s.buildD k = (s.withD s.distTableBuilt).fail .dOversub := by
  rcases s.buildD_cases k with ⟨_, e⟩ | ⟨h', _⟩ | ⟨n, h', _⟩
  · exact e
  · cases h.symm.trans h'
  · cases h.symm.trans h'

theorem State.buildD_accepted {n : Nat} {t : Table} (h : s.distTableBuilt.left = some (n + 1))
    (ht : distException s.ctl.allow s.distTableBuilt = some t) : s.buildD k = k (s.withD t) := by
  rcases s.buildD_cases k with ⟨h', _⟩ | ⟨h', _⟩ | ⟨_, _, ⟨ht', _⟩ | ⟨t', ht', e⟩⟩
  · cases h.symm.trans h'
  · cases h.symm.trans h'
  · cases ht.symm.trans ht'
  · cases ht.symm.trans ht'
    exact e

theorem State.buildD_refused {n : Nat} (h : s.distTableBuilt.left = some (n + 1))
    (ht : distException s.ctl.allow s.distTableBuilt = none) :
    s.buildD k = (s.withD s.distTableBuilt).fail .dIncomplete := by
  rcases s.buildD_cases k with ⟨h', _⟩ | ⟨h', _⟩ | ⟨_, _, ⟨_, e⟩ | ⟨t, ht', _⟩⟩
  · cases h.symm.trans h'
  · cases h.symm.trans h'
  · exact e
  · cases ht.symm.trans ht'

end

/-! ## DYN_BUILD -/

/-- The table of the first NLEN lengths (R135). -/
def State.llTableBuilt (s : State) : Table := buildTable (s.blk.lens.take s.blk.nlen.toNat)

/-- s with LL_T written, the hold flags clear. -/
def State.withLL (s : State) : State := { s.took 0 with tabs := { s.tabs with ll := s.llTableBuilt } }

section
variable {s : State} (hr : s.top = .running)
include hr

theorem exec_dynBuild_noEob (h : s.blk.lens.getD 256 0 = 0) : exec .dynBuild s = .next ((s.took 0).stopped 5 12) := by
  rw [exec_dynBuild, execDynBuild, State.inf_running _ hr, s.took_zero]
  exact congrArg _ (if_pos h)

/-- With a code for symbol 256, DYN_BUILD's turn validates LL_T and then builds D_T (R135). -/
theorem exec_dynBuild_running (h : s.blk.lens.getD 256 0 ≠ 0) :
    exec .dynBuild s =
      .next (s.withLL.validate s.llTableBuilt .llOversub .llIncomplete fun u => u.buildD fun v => v.into .sym) := by
  rw [exec_dynBuild, execDynBuild, State.inf_running _ hr, State.withLL, s.took_zero]
  exact congrArg _ (if_neg h)

theorem exec_dynBuild_complete (h : s.blk.lens.getD 256 0 ≠ 0) (hll : s.llTableBuilt.left = some 0) :
    exec .dynBuild s = .next (s.withLL.buildD fun v => v.into .sym) := by
  rw [exec_dynBuild_running hr h, State.validate_complete _ _ _ hll]

end

/-- Settles O27: LL_T's build is Validate's three cases, and where it passes D_T's is its four; a set without codes, or
with one code of one bit, is incomplete. -/
theorem dynamicBuild : Obligations.DynamicBuild := by
  refine ⟨fun s d hr heob => ?_, fun s hr => ?_⟩
  · intro l d0 hll hd
    have hformed := s.withLL.distTableBuilt_formed
    rw [exec_dynBuild_complete hr heob hll]
    rcases hd with ⟨hd, rfl⟩ | ⟨hallow, hsyms, rfl⟩ | ⟨hallow, hlen, hone, rfl⟩
    · exact congrArg _ (State.buildD_complete _ hd)
    · exact congrArg _ (State.buildD_accepted _ (hformed.left_of_no_codes hsyms) (distException_empty hallow hsyms))
    · exact congrArg _
        (State.buildD_accepted _ (hformed.left_of_one_code hlen hone) (distException_single hallow hlen hone))
  · intro l d u w
    refine ⟨exec_dynBuild_noEob hr, fun heob => ?_⟩
    have hrun := exec_dynBuild_running hr heob
    refine ⟨fun hll => hrun.trans (congrArg _ (State.validate_oversubscribed _ _ _ hll)),
      fun n hll => hrun.trans (congrArg _ (State.validate_incomplete _ _ _ hll)), fun hll => ?_⟩
    rw [exec_dynBuild_complete hr heob hll]
    exact ⟨fun hd => congrArg _ (State.buildD_oversubscribed _ hd),
      fun n hd hrefused => congrArg _ (State.buildD_refused _ hd (distException_none hrefused))⟩

end Sys2Proof.Machine
end

section
/-! PROOF. The code of a code-length symbol, as equations (R130, R131). -/

namespace Sys2Proof.Machine

/-! ## The code of a code-length symbol -/

/-- One length is written at LEN_IDX, and DYN_BUILD follows where it is the last one (R130, R131). -/
theorem State.putLens_one {s : State} (h : s.blk.lenIdx.toNat < s.blk.nlen.toNat + s.blk.ndist.toNat) (l : BitVec 4) :
    s.putLens 1 l =
      let t : State :=
        { s with blk := { s.blk with lens := s.blk.lens.set s.blk.lenIdx.toNat l, lenIdx := s.blk.lenIdx + 1 } }
      if s.blk.lenIdx.toNat + 1 = s.blk.nlen.toNat + s.blk.ndist.toNat then t.into .dynBuild else t := by
  have hidx : BitVec.ofNat 9 (s.blk.lenIdx.toNat + 1) = s.blk.lenIdx + 1 := by
    rw [BitVec.ofNat_add, BitVec.ofNat_toNat, BitVec.setWidth_eq]
    rfl
  have hlast : s.blk.nlen.toNat + s.blk.ndist.toNat ≤ s.blk.lenIdx.toNat + 1 ↔
      s.blk.lenIdx.toNat + 1 = s.blk.nlen.toNat + s.blk.ndist.toNat := ⟨Nat.le_antisymm h, fun heq => heq.ge⟩
  simp only [State.putLens, setLens, hidx, hlast]
  rfl

/-- The code step of symbol 16 (R130). -/
theorem exec_clRep16_code {s : State} (hr : s.top = .running) :
    exec (.clRep16 .code) s =
      .next (if s.blk.lenIdx = 0 then s.unhold.endCode.fail .repNoPrev else s.unhold.awaitRepeat 16) :=
  (exec_clRep16 _ s).trans (State.inf_running _ hr)

/-- Settles O25: a length is one written length, 16 is REP_NO_PREV's choice on LEN_IDX, and 17 and 18 wait for their
extra bits. -/
theorem codeLengthSymbols : Obligations.CodeLengthSymbols := by
  rintro s ⟨hr, -⟩ u
  refine ⟨fun l hidx => ?_, fun hfirst => ?_, fun hprev => ?_, ?_, ?_⟩
  · exact (exec_clLen l s).trans ((State.inf_running _ hr).trans (congrArg _ (State.putLens_one (s := u) hidx l)))
  · rw [exec_clRep16_code hr, if_pos hfirst]
    rfl
  · rw [exec_clRep16_code hr, if_neg hprev]
    rfl
  · exact (exec_clZero17 _ s).trans (State.inf_running _ hr)
  · exact (exec_clZero18 _ s).trans (State.inf_running _ hr)

end Sys2Proof.Machine
end

section
/-! PROOF. A literal's two steps, as equations (R136, R137, R138). -/

namespace Sys2Proof.Machine

/-- A literal's code bit is taken and the literal latched (R137). -/
theorem exec_litCode_running {s : State} (hr : s.top = .running) (b : Byte) :
    exec (.lit (.code b)) s =
      .next (State.into { s.took 1 with hc := Hc.zero, copy := { s.copy with litByte := b } } .lit) := by
  rw [exec_lit, execLit]
  exact State.inf_running _ hr

/-- LIT_BYTE's emit, where neither check of R136 raises, clears it and leads back to SYM (R138). -/
theorem exec_litEmit_emitted {s : State} (hr : s.top = .running) (hc : s.canEmit) (hm : s.mayEmit) :
    exec (.lit .emit) s =
      .next
        (State.into { s.took 0 with out := s.out.emitted s.copy.litByte, copy := { s.copy with litByte := 0 } } .sym) := by
  rw [exec_lit, execLit, State.infEmit_space _ hr hc, State.emit_mayEmit (s := s.unhold) _ _ hm, State.took_zero]
  rfl

/-- Settles O17: the code's step does not ask OUT_FIFO, and the emit step, with space and no check raised, emits. -/
theorem literalLatchesThenEmits : Obligations.LiteralLatchesThenEmits :=
  ⟨fun b _ hs => exec_litCode_running hs.1 b,
    fun s hr hc hm => ⟨_, s.out.emitted_emits s.copy.litByte hm.2, exec_litEmit_emitted hr hc hm⟩⟩

end Sys2Proof.Machine
end

section
/-! PROOF. The progress law of R146: which steps read no bits, and how many of them can follow each other. -/

namespace Sys2Proof.Machine

/-- A bound, by phase, on the steps INF can take from here before its next bit: those of a literal or of a length without
extra bits, those of a copy, from its distance on, and the two builds (R143, R146). -/
def State.bitlessSteps (s : State) : Nat :=
  match s.phase with
  | .lit | .lextra | .dynCl | .dynBuild => 1
  | .dextra => 259
  | .copy => s.copy.len.toNat
  | _ => 0

/-- Outside a copy the bound is the phase's. -/
theorem State.bitlessSteps_congr {s t : State} (h : t.phase = s.phase) (hp : s.phase ≠ .copy) :
    t.bitlessSteps = s.bitlessSteps := by
  unfold State.bitlessSteps
  rw [h]
  cases hs : s.phase with
  | copy => exact absurd hs hp
  | _ => rfl

theorem State.StreamInv.bitlessSteps_le {s : State} (hs : s.StreamInv) (hr : s.top = .running) :
    s.bitlessSteps ≤ 259 := by
  unfold State.bitlessSteps
  cases hp : s.phase with
  | copy =>
    obtain ⟨_, hle, _⟩ := hs.copy hr hp
    exact Nat.le_succ_of_le hle
  | _ => simp

/-! ## The steps that read no bits -/

/-- The contexts whose step reads no bits, but for the codes of an EMPTY table (R13, R125, R146). -/
theorem Ctx.bitless_cases {c : Ctx} (hone : Ctx.OneBit c) (hn : c.need = 0) :
    c = .clBuild ∨ c = .dynBuild ∨ c = .litEmit ∨ (∃ x, c = .lenExtra x) ∨ (∃ x, c = .distExtra x) ∨
      ∃ len dist, c = .copy len dist := by
  cases c with
  | clBuild | dynBuild | litEmit | lenExtra | distExtra | copy => simp
  | clSym t h => simp [Ctx.need_clSym hone] at hn
  | llSym t h => simp [Ctx.need_llSym hone] at hn
  | dSym t h => simp [Ctx.need_dSym hone] at hn
  | _ => cases hn

/-- What a step that reads no bits does to a stream: it ends in FAILED, or there are fewer such steps to come, and it
emits a byte or is one of those R146 names. -/
def Spends (s t : State) : Prop :=
  t.top = .failed ∨
  (t.bitlessSteps < s.bitlessSteps ∧
    ((∃ b, t.out = s.out.emitted b) ∨
      s.phase = .lextra ∨ s.phase = .dextra ∨ s.phase = .dynCl ∨ s.phase = .dynBuild))

section
variable (s : State) (k : State → State)

/-- Validate fails or goes on from some state (R123). -/
theorem State.validate_goes (t : Table) (o i : ErrCause) :
    (s.validate t o i k).top = .failed ∨ ∃ u, s.validate t o i k = k u := by
  rcases s.validate_cases t o i k with ⟨_, e⟩ | ⟨_, e⟩ | ⟨_, _, e⟩ <;> rw [e]
  · exact .inl rfl
  · exact .inr ⟨s, rfl⟩
  · exact .inl rfl

theorem State.buildCL_goes : (s.buildCL k).top = .failed ∨ ∃ u, s.buildCL k = k u :=
  State.validate_goes _ k _ _ _

theorem State.buildLL_goes : (s.buildLL k).top = .failed ∨ ∃ u, s.buildLL k = k u :=
  State.validate_goes _ k _ _ _

theorem State.buildD_goes : (s.buildD k).top = .failed ∨ ∃ u, s.buildD k = k u := by
  rcases s.buildD_cases k with ⟨_, e⟩ | ⟨_, e⟩ | ⟨_, _, ⟨_, e⟩ | ⟨_, _, e⟩⟩ <;> rw [e]
  · exact .inl rfl
  · exact .inr ⟨_, rfl⟩
  · exact .inl rfl
  · exact .inr ⟨_, rfl⟩

end

section
variable {s t : State} (hr : s.top = .running)
include hr

theorem Spends.clBuild (hp : s.phase = .dynCl) (h : execDynClen .build s = .next t) : Spends s t := by
  obtain rfl := State.inf_next hr h
  rcases s.unhold.buildCL_goes _ with e | ⟨u, e⟩
  · exact .inl e
  · refine .inr ⟨?_, by simp [hp]⟩
    rw [e]
    simp [State.bitlessSteps, hp]

theorem Spends.dynBuild (hp : s.phase = .dynBuild) (h : execDynBuild s = .next t) : Spends s t := by
  obtain rfl := State.inf_next hr h
  split
  · exact .inl rfl
  · rcases s.unhold.buildLL_goes _ with e | ⟨u, e⟩
    · exact .inl e
    · rw [e]
      rcases u.buildD_goes fun v => v.goto .sym with e | ⟨v, e⟩
      · exact .inl e
      · refine .inr ⟨?_, by simp [hp]⟩
        rw [e]
        simp [State.bitlessSteps, hp]

theorem Spends.lenExtra {k : Nat} {sym : BitVec 9} {base : Nat} {e : BitVec k} (hp : s.phase = .lextra)
    (h : lenSymbol sym base (.extra e) s = .next t) : Spends s t := by
  obtain rfl := State.inf_next hr h
  exact .inr ⟨by simp [State.bitlessSteps, hp], by simp [hp]⟩

theorem Spends.distExtra {k : Nat} {sym : BitVec 5} {base : Nat} {e : BitVec k} (hs : s.StreamInv)
    (hp : s.phase = .dextra) (h : distSymbol sym base (.extra e) s = .next t) : Spends s t := by
  have hlen := (hs.pend hr (.inr hp)).2
  obtain rfl := State.inf_next hr h
  unfold startCopy
  split
  · exact .inl rfl
  · refine .inr ⟨?_, by simp [hp]⟩
    simpa [State.bitlessSteps, hp] using Nat.lt_succ_of_le hlen

theorem Spends.litEmit (hp : s.phase = .lit) (hc : s.canEmit) (h : execLit .emit s = .next t) : Spends s t := by
  rw [execLit, State.infEmit_space _ hr hc] at h
  cases h
  refine State.emit_keeps (P := Spends s) (fun _ => .inl rfl) (.inr ⟨?_, .inl ⟨_, rfl⟩⟩)
  simp [State.bitlessSteps, hp]

theorem Spends.copy {dist : BitVec 16} (hs : s.StreamInv) (hp : s.phase = .copy) (hc : s.canEmit)
    (h : execMatchCopy s.copy.len dist s = .next t) : Spends s t := by
  have hlen : 0 < s.copy.len.toNat := (hs.copy hr hp).1
  have hless : (s.copy.len.toNat - 1) % 512 < s.copy.len.toNat := by omega
  rw [execMatchCopy, State.infEmit_space _ hr hc] at h
  split at h
  · cases h
  · cases h
    refine State.emit_keeps (P := Spends s) (fun _ => .inl rfl) ?_
    dsimp only
    split
    · exact .inr ⟨by simpa [State.bitlessSteps, hp] using hlen, .inl ⟨_, rfl⟩⟩
    · exact .inr ⟨by simpa [State.bitlessSteps, hp] using hless, .inl ⟨_, rfl⟩⟩

/-- Every row that reads no bits, in a stream whose emits have space, spends one of the steps still to come. -/
theorem Reads.spends {c : Ctx} {m : State → Out} (hm : Reads c m) (hone : Ctx.OneBit c) (hn : c.need = 0)
    (hs : s.StreamInv) (hat : Ctx.At c s) (hc : Ctx.Emits c → s.canEmit) (h : m s = .next t) : Spends s t := by
  rcases Ctx.bitless_cases hone hn with rfl | rfl | rfl | ⟨x, rfl⟩ | ⟨x, rfl⟩ | ⟨len, dist, rfl⟩
  · cases hm
    exact .clBuild hr hat h
  · cases hm
    exact .dynBuild hr hat h
  · cases hm
    exact .litEmit hr hat (hc (.inr (.inl rfl))) h
  · cases hm
    exact .lenExtra hr hat.1 h
  · cases hm
    exact .distExtra hr hs hat.1 h
  · cases hm
    obtain ⟨hp, rfl, rfl⟩ := hat
    exact .copy hr hs hp (hc (.inr (.inr ⟨_, _, rfl⟩))) h

end

/-! ## INF's turn -/

/-- A turn that reads no bits and does not wait for OUT_FIFO spends one of the steps still to come (R146). -/
theorem infStep_spends {s t : State} {c : Ctx} (hs : s.StreamInv) (hr : s.top = .running) (hout : s.holdOut = false)
    (hc : s.ctx = some c) (hn : c.need = 0) (h : infStep s = .next t) : Spends s t := by
  rcases infStep_cases h with
    ⟨hstop, _⟩ | ⟨_, c', hc', ⟨hlt, _⟩ | ⟨hle, ⟨h', hd, rfl⟩ | ⟨h', _, rfl⟩ | ⟨i, left, hd, he⟩⟩⟩
  · exact absurd hr hstop
  all_goals obtain rfl := Option.some.inj (hc.symm.trans hc')
  · exact absurd hlt (by simp [hn])
  · cases hn.symm.trans (Ctx.need_of_more hd)
  · exact .inl rfl
  · have hspace (hemit : Ctx.Emits c) : s.canEmit := by
      by_contra hfull
      have hwait : WaitsOut c s { s with heldOut := true } := ⟨hemit, hfull, rfl⟩
      exact absurd (hwait.holdOut hr hc hle) (by simp [hout])
    exact (Reads.of_decode hd).spends hr (Ctx.oneBit_of_decode hd) hn hs (State.ctx_at hc) hspace he

/-- What a turn that is not held does (R146): it ends the stream in FAILED, takes a byte of IN_FIFO, takes bits, or reads
no bits and spends a step. -/
theorem infStep_progress {s t : State} (hs : s.StreamInv) (hr : s.top = .running) (hheld : s.held = false)
    (h : infStep s = .next t) :
    t.top = .failed ∨
    (∃ b rest, s.inp.fifo = b :: rest ∧ s.inp.cnt.toNat < 16 ∧ t = s.unhold.takeByte b rest) ∨
    (∃ n, 1 ≤ n ∧ n ≤ s.inp.cnt.toNat ∧ t.inp = (s.dropBits n).inp) ∨
    ((∃ c, s.ctx = some c ∧ c.need = 0) ∧ (∃ n, t.inp = (s.dropBits n).inp) ∧ Spends s t) := by
  obtain ⟨hin, hout⟩ : s.holdIn = false ∧ s.holdOut = false := by simpa [State.held] using hheld
  rcases infStep_front h with ⟨hstop, _⟩ | ⟨_, c, hc, ⟨hlt, rfl⟩ | ⟨hle, hadv | hwait⟩⟩
  · exact absurd hr hstop
  · rcases s.fill_cases with ⟨b, rest, hf, _, e⟩ | ⟨_, _, e⟩ | ⟨_, _, e⟩ | ⟨hf, he, _⟩
    · exact .inr (.inl ⟨b, rest, hf, Nat.lt_of_lt_of_le hlt (Ctx.need_le c), e⟩)
    · exact .inl (by rw [e]; rfl)
    · exact .inl (by rw [e]; rfl)
    · exact absurd ((holdIn_iff s).2 ⟨hr, c, hc, hlt, hf, he⟩) (by simp [hin])
  · obtain ⟨n, hneed, hcnt, hinp⟩ := hadv.inp hle
    rcases Nat.eq_zero_or_pos c.need with h0 | hpos
    · exact .inr (.inr (.inr ⟨⟨c, hc, h0⟩, ⟨n, hinp⟩, infStep_spends hs hr hout hc h0 h⟩))
    · exact .inr (.inr (.inl ⟨n, Nat.le_trans hpos hneed, hcnt, hinp⟩))
  · exact absurd (hwait.holdOut hr hc hle) (by simp [hout])

/-- Settles O41: a turn that reads no bits emits or is one of the four kinds, and its phase changes because the bound on
such steps falls. -/
theorem infStepProgresses : Obligations.InfStepProgresses := by
  intro s t hs hr hheld h
  rcases infStep_progress hs.stream hr hheld h with
    hfail | ⟨b, rest, hf, _, rfl⟩ | ⟨n, h1, hn, hinp⟩ | ⟨hneed, _, hfail | ⟨hless, ⟨b, hb⟩ | hp⟩⟩
  · exact .inr (.inr (.inr (.inl hfail)))
  · exact .inl ⟨rfl, by rw [hf]; rfl⟩
  · refine .inr (.inl ⟨?_, by rw [hinp]; rfl⟩)
    rw [hinp, dropBits_cnt]
    omega
  · exact .inr (.inr (.inr (.inl hfail)))
  · refine .inr (.inr (.inl ⟨by rw [hb]; rfl, ?_⟩))
    rw [hb]
    exact List.length_append
  · have hcopy : s.phase ≠ .copy := by rcases hp with e | e | e | e <;> simp [e]
    exact .inr (.inr (.inr (.inr ⟨hneed, hp, fun hsame => hless.ne (State.bitlessSteps_congr hsame hcopy)⟩)))

/-! ## The bound -/

/-- INF's steps still possible on the input that is there: one for each byte's fill, 2 + 258 for each bit, and those
before the next bit (R146). -/
def State.stepsLeft (s : State) : Nat :=
  s.inp.fifo.length * (1 + 8 * (2 + 258)) + s.inp.cnt.toNat * (2 + 258) + s.bitlessSteps

/-- A turn of INF that is not held and does not end the stream uses up one of the steps still possible. -/
theorem infStep_stepsLeft_lt {s t : State} (hs : s.StreamInv) (ht : t.StreamInv) (hr : s.top = .running)
    (hheld : s.held = false) (h : infStep s = .next t) (htr : t.top = .running) : t.stepsLeft < s.stepsLeft := by
  have htaken {n : Nat} (hinp : t.inp = (s.dropBits n).inp) :
      t.inp.fifo.length = s.inp.fifo.length ∧ t.inp.cnt.toNat = s.inp.cnt.toNat - n := by
    rw [hinp, dropBits_cnt]
    exact ⟨rfl, rfl⟩
  unfold State.stepsLeft
  rcases infStep_progress hs hr hheld h with
    hfail | ⟨b, rest, hf, hcnt, rfl⟩ | ⟨n, h1, hn, hinp⟩ | ⟨_, ⟨n, hinp⟩, hfail | ⟨hless, _⟩⟩
  · cases hfail.symm.trans htr
  · have hbits := takeByte_cnt (s := s.unhold) hcnt b rest
    have hsame : (s.unhold.takeByte b rest).bitlessSteps = s.bitlessSteps := rfl
    simp only [State.takeByte_inp, State.unhold_inp] at hbits ⊢
    rw [hf, List.length_cons]
    omega
  · obtain ⟨hfifo, hbits⟩ := htaken hinp
    have hbound := ht.bitlessSteps_le htr
    omega
  · cases hfail.symm.trans htr
  · obtain ⟨hfifo, hbits⟩ := htaken hinp
    omega

theorem infStep_agenda {s t : State} (h : infStep s = .next t) : t.agenda = s.agenda := by
  rcases infStep_emission h with e | ⟨_, _, _, e⟩
  · exact congrArg Outer.agenda e
  · exact congrArg Outer.agenda e

/-- With a silent host, a stream with fewer than m steps left ends or holds within m steps. -/
theorem ends_or_holds_within (m : Nat) {s : State} (hs : s.Inv) (ha : s.agenda = [])
    (hm : s.top = .running → s.stepsLeft < m) :
    ∃ k t, k ≤ m ∧ Host.Core.run Sys2Proof.core k s = .next t ∧ (t.top ≠ .running ∨ t.held = true) := by
  induction m generalizing s with
  | zero => exact ⟨0, s, Nat.le_refl 0, rfl, .inl fun hr => Nat.not_lt_zero _ (hm hr)⟩
  | succ m ih =>
    by_cases hstop : s.top ≠ .running ∨ s.held = true
    · exact ⟨0, s, Nat.zero_le _, rfl, hstop⟩
    · obtain ⟨hr, hheld⟩ : s.top = .running ∧ s.held = false := by simpa using hstop
      obtain ⟨u, hu⟩ := hs.infStep_answers
      have hstep : step s = .next u := (step_inf_nil ha).trans hu
      have hui := stepKeepsInv s u hs hstep
      have hleft (hur : u.top = .running) : u.stepsLeft < m :=
        Nat.lt_of_lt_of_le (infStep_stepsLeft_lt hs.stream hui.stream hr hheld hu hur) (Nat.le_of_lt_succ (hm hr))
      obtain ⟨k, t, hk, hrun, hend⟩ := ih hui ((infStep_agenda hu).trans ha) hleft
      exact ⟨k + 1, t, Nat.succ_le_succ hk, (run_succ Sys2Proof.core hstep k).trans hrun, hend⟩

/-- Settles O42: at its start a stream has no bit in BITBUF and no bitless step to come, so its bytes bound its steps. -/
theorem streamEndsOrHolds : Obligations.StreamEndsOrHolds := by
  intro s hs _ ha hp hcnt n
  have hleft : s.stepsLeft = n * (1 + 8 * (2 + 258)) := by simp [State.stepsLeft, State.bitlessSteps, hp, hcnt, n]
  obtain ⟨k, t, hk, hrun, hend⟩ := ends_or_holds_within (s.stepsLeft + 1) hs ha fun _ => Nat.lt_succ_self _
  exact ⟨k, t, by omega, hrun, hend⟩

end Sys2Proof.Machine
end

section
/-! PROOF. The CRC update is linear, and feeding the bytes of a word is 32 rounds on the register with the word
exclusive-ored in (R209, R212). -/

namespace Sys2Proof.Machine

/-! ## The rounds -/

theorem crcRound_of_bit_set {c : Word} (h : c.getLsbD 0 = true) : crcRound c = (c >>> 1) ^^^ 0xEDB88320 :=
  if_pos h

theorem crcRound_of_bit_clear {c : Word} (h : c.getLsbD 0 = false) : crcRound c = c >>> 1 :=
  if_neg (Bool.not_eq_true _ ▸ h)

/-- The polynomial enters once for each operand whose low bit is set, and what enters twice cancels. -/
theorem crcRound_xor (a b : Word) : crcRound (a ^^^ b) = crcRound a ^^^ crcRound b := by
  have hbit : (a ^^^ b).getLsbD 0 = (a.getLsbD 0 ^^ b.getLsbD 0) := BitVec.getLsbD_xor
  cases ha : a.getLsbD 0 <;> cases hb : b.getLsbD 0 <;> rw [ha, hb] at hbit
  case false.false =>
    rw [crcRound_of_bit_clear hbit, crcRound_of_bit_clear ha, crcRound_of_bit_clear hb, BitVec.ushiftRight_xor_distrib]
  case false.true =>
    rw [crcRound_of_bit_set hbit, crcRound_of_bit_clear ha, crcRound_of_bit_set hb, BitVec.ushiftRight_xor_distrib,
      xor_assoc]
  case true.false =>
    rw [crcRound_of_bit_set hbit, crcRound_of_bit_set ha, crcRound_of_bit_clear hb, BitVec.ushiftRight_xor_distrib]
    ac_rfl
  case true.true =>
    rw [crcRound_of_bit_clear hbit, crcRound_of_bit_set ha, crcRound_of_bit_set hb, BitVec.ushiftRight_xor_distrib,
      xor_comm (b >>> 1), ← xor_assoc, xor_cancel_right]

theorem crcRounds_xor (n : Nat) (a b : Word) : crcRounds n (a ^^^ b) = crcRounds n a ^^^ crcRounds n b := by
  induction n generalizing a b with
  | zero => rfl
  | succ n ih => rw [crcRounds, crcRound_xor, ih, crcRounds, crcRounds]

theorem crcRounds_add (m n : Nat) (c : Word) : crcRounds (m + n) c = crcRounds n (crcRounds m c) := by
  induction m generalizing c with
  | zero => rw [Nat.zero_add, crcRounds]
  | succ m ih => rw [Nat.add_right_comm, crcRounds, ih, crcRounds]

theorem crcRounds_eq_repeat (n : Nat) (c : Word) : crcRounds n c = Nat.repeat crcRound n c := by
  induction n with
  | zero => rfl
  | succ n ih => rw [crcRounds_add, Nat.repeat, ih]; rfl

/-- While the low bits are clear, the polynomial does not enter. -/
theorem crcRounds_of_low_clear {n : Nat} {c : Word} (h : ∀ i < n, c.getLsbD i = false) : crcRounds n c = c >>> n := by
  induction n generalizing c with
  | zero => exact (BitVec.ushiftRight_zero c).symm
  | succ n ih =>
    have hlow : ∀ i < n, (c >>> 1).getLsbD i = false := fun i hi => by
      rw [BitVec.getLsbD_ushiftRight]
      exact h (1 + i) (by omega)
    rw [crcRounds, crcRound_of_bit_clear (h 0 n.succ_pos), ih hlow, ← BitVec.shiftRight_add, Nat.add_comm]

/-! ## The low byte -/

theorem byte_ushiftRight_eight (b : Byte) : (b.setWidth 32 : Word) >>> 8 = 0 := by
  refine BitVec.eq_of_getLsbD_eq fun i _ => ?_
  rw [BitVec.getLsbD_ushiftRight, BitVec.getLsbD_setWidth, BitVec.getLsbD_of_ge b _ (Nat.le_add_right 8 i),
    Bool.and_false, BitVec.ofNat_eq_ofNat, BitVec.getLsbD_zero]

theorem and_lowByte (x : Word) : x &&& 0xFF = (x.setWidth 8).setWidth 32 :=
  (BitVec.and_setWidth_allOnes 24 8 x).trans (BitVec.setWidth_eq_append (by decide)).symm

theorem crcRounds_eight_lowByte_xor (x : Word) : crcRounds 8 ((x.setWidth 8).setWidth 32 ^^^ x) = x >>> 8 := by
  have hlow : ∀ i < 8, ((x.setWidth 8).setWidth 32 ^^^ x).getLsbD i = false := fun i hi => by
    have hi32 : i < 32 := by omega
    simp [hi, hi32]
  rw [crcRounds_of_low_clear hlow, BitVec.ushiftRight_xor_distrib, byte_ushiftRight_eight, zero_xor]

/-- Of a word exclusive-ored into the register, eight rounds feed the low byte and leave the rest shifted. -/
theorem crcRounds_eight_xor (c v : Word) : crcRounds 8 (c ^^^ v) = crcUpdate c (v.setWidth 8) ^^^ v >>> 8 :=
  let low : Word := (v.setWidth 8).setWidth 32
  calc crcRounds 8 (c ^^^ v)
    _ = crcRounds 8 ((c ^^^ low) ^^^ (low ^^^ v)) := by rw [xor_assoc, xor_cancel_left]
    _ = crcUpdate c (v.setWidth 8) ^^^ v >>> 8 := by rw [crcRounds_xor, crcRounds_eight_lowByte_xor, crcUpdate]

/-- The 256-entry table form of the update (R209). -/
theorem crcUpdate_eq_table (c : Word) (b : Byte) :
    crcUpdate c b = crcRounds 8 ((c ^^^ b.setWidth 32) &&& 0xFF) ^^^ (c >>> 8) := by
  have hrest : (c ^^^ b.setWidth 32) >>> 8 = c >>> 8 := by
    rw [BitVec.ushiftRight_xor_distrib, byte_ushiftRight_eight, xor_zero]
  have htable := crcRounds_eight_xor 0 (c ^^^ b.setWidth 32)
  rwa [hrest, crcUpdate, zero_xor, zero_xor, ← and_lowByte] at htable

/-! ## Byte sequences -/

theorem crcUpdate_xor (r q : Word) (b : Byte) : crcUpdate (r ^^^ q) b = crcUpdate r b ^^^ crcUpdate q 0 := by
  have hzero : q ^^^ (0 : Byte).setWidth 32 = q := xor_zero q
  have hcomm : r ^^^ q ^^^ b.setWidth 32 = r ^^^ b.setWidth 32 ^^^ q := by ac_rfl
  rw [crcUpdate, crcUpdate, crcUpdate, hcomm, hzero, crcRounds_xor]

theorem crcFeed_cons (r : Word) (b : Byte) (m : List Byte) : crcFeed r (b :: m) = crcFeed (crcUpdate r b) m := rfl

theorem crcFeed_append (r : Word) (m n : List Byte) : crcFeed r (m ++ n) = crcFeed (crcFeed r m) n :=
  List.foldl_append

/-- What is exclusive-ored into the start is carried along as if every byte were 0 (R212). -/
theorem crcFeed_xor (m : List Byte) (r q : Word) :
    crcFeed (r ^^^ q) m = crcFeed r m ^^^ crcFeed q (List.replicate m.length 0) := by
  induction m generalizing r q with
  | nil => rfl
  | cons b m ih =>
    rw [crcFeed_cons, crcUpdate_xor, ih, List.length_cons, List.replicate_succ, crcFeed_cons, crcFeed_cons]

/-- Settles O34: with 0 and r for the two operands, `crcFeed_xor` is R212's law. -/
theorem crcLinearity : Obligations.CrcLinearity := by
  refine ⟨fun m r => ?_, fun m n r => crcFeed_append r m n⟩
  have hlinear := crcFeed_xor m 0 r
  rwa [zero_xor] at hlinear

/-! ## The residue -/

/-- The n low bytes of a word, least significant first. -/
def lowBytes : Nat → Word → List Byte
  | 0, _ => []
  | n + 1, v => v.setWidth 8 :: lowBytes n (v >>> 8)

theorem lowBytes_four (v : Word) :
    lowBytes 4 v = [v.setWidth 8, (v >>> 8).setWidth 8, (v >>> 16).setWidth 8, (v >>> 24).setWidth 8] := by
  simp only [lowBytes, ← BitVec.shiftRight_add]

theorem crcFeed_lowBytes (n : Nat) (r v : Word) :
    crcFeed r (lowBytes n v) ^^^ v >>> (8 * n) = crcRounds (8 * n) (r ^^^ v) := by
  induction n generalizing r v with
  | zero => rfl
  | succ n ih =>
    rw [Nat.mul_succ, Nat.add_comm (8 * n), crcRounds_add, crcRounds_eight_xor, ← ih, BitVec.shiftRight_add,
      lowBytes, crcFeed_cons]

/-- Feeding a whole word is 32 rounds on the register with the word exclusive-ored in. -/
theorem crcFeed_word (r v : Word) : crcFeed r (lowBytes 4 v) = crcRounds 32 (r ^^^ v) := by
  rw [← crcFeed_lowBytes 4 r v, BitVec.ushiftRight_eq_zero (Nat.le_refl 32)]
  exact (xor_zero _).symm

/-- The residue is what 32 rounds make of all ones (R212). -/
theorem crcRounds_allOnes : ~~~ crcRounds 32 (BitVec.allOnes 32) = 0x2144DF1C := by decide +kernel

/-- Settles O35: a register with its own complement exclusive-ored in is all ones, whatever the bytes before. -/
theorem crcResidue : Obligations.CrcResidue := by
  intro m v
  have hones : crcFeed 0xFFFFFFFF m ^^^ v = BitVec.allOnes 32 := by
    rw [← BitVec.not_xor_right, BitVec.xor_self, BitVec.not_zero]
  rw [crcFeed_append, ← lowBytes_four, crcFeed_word, hones, crcRounds_allOnes]

/-! ## The commands -/

theorem crcCount_toNat (n : Word) :
    (if n = 0xFFFFFFFF then n else n + 1).toNat = min (n.toNat + 1) 0xFFFFFFFF := by
  split
  case isTrue h =>
    subst h
    rfl
  case isFalse h => bv_omega

/-- Settles O33: the rounds are `crcRounds_eq_repeat`'s, the count is `crcCount_toNat`'s, and the table form is
`crcUpdate_eq_table`. -/
theorem crcInitAndByte : Obligations.CrcInitAndByte := by
  intro b s
  exact ⟨rfl, ⟨crcUpdate s.crc.reg b, _, crcRounds_eq_repeat 8 _, crcCount_toNat s.crc.count, rfl⟩,
    fun c => crcUpdate_eq_table c b⟩

end Sys2Proof.Machine
end

section
/-! PROOF. Error entry (R214): the writes that may stand before a Fail, and that every Fail of INF or of a push is made
from the state before its step with those writes and no others. -/

namespace Sys2Proof.Machine

/-- The phases that read a code (R125). -/
def Phase.ReadsCode (p : Phase) : Prop := p = .dynLens ∨ p = .sym ∨ p = .dist

/-- The states a step from s can be in when it comes to its Fail, by what its pseudocode has written before (R214). -/
inductive BeforeFail (s : State) : State → Prop where
  /-- Nothing: a push. -/
  | nothing : BeforeFail s s
  /-- Bits consumed. -/
  | bits (n : Nat) : BeforeFail s (s.took n)
  /-- Bits of a code consumed (log 18). -/
  | code (n : Nat) (h : Hc) (hp : s.phase.ReadsCode) : BeforeFail s { s.took n with hc := h }
  /-- FLG (R111). -/
  | flg (v : Byte) (hp : s.phase = .zhdr) : BeforeFail s { s.took 8 with zl := { s.zl with flg := v } }
  /-- A trailer byte (R116). -/
  | trailer (v : Word) (n : BitVec 3) (hp : s.phase = .trailer) :
    BeforeFail s { s.took 8 with zl := { s.zl with trailerVal := v, trailerN := n } }
  /-- A block header (R117). -/
  | header (f : Bool) (b : BitVec 2) (hp : s.phase = .bhdr) :
    BeforeFail s { s.took 3 with blk := { s.blk with bfinal := f, btype := b } }
  /-- NCODE (R128). -/
  | ncode (v : BitVec 5) (hp : s.phase = .dynHdr) : BeforeFail s { s.took 4 with blk := { s.blk with ncode := v } }
  /-- The tables (R129, R135; log 18). -/
  | tables (ts : Tables) (hp : s.phase = .dynCl ∨ s.phase = .dynBuild) : BeforeFail s { s.unhold with tabs := ts }

theorem BeforeFail.unhold (s : State) : BeforeFail s s.unhold := s.took_zero ▸ .bits 0

/-! ## What those writes leave alone -/

section
variable {s u : State} (h : BeforeFail s u)
include h

/-- Fail itself writes STATE and the error registers (R214). -/
theorem BeforeFail.fail_frame (x : ErrCause) :
    u.fail x =
      { s with
        agenda := u.agenda
        top := .failed
        err := (u.fail x).err
        heldIn := u.heldIn
        heldOut := u.heldOut
        inp := { s.inp with buf := u.inp.buf, cnt := u.inp.cnt }
        zl := { s.zl with flg := u.zl.flg, trailerVal := u.zl.trailerVal, trailerN := u.zl.trailerN }
        blk := { s.blk with bfinal := u.blk.bfinal, btype := u.blk.btype, ncode := u.blk.ncode }
        tabs := u.tabs
        hc := u.hc } := by
  cases h <;> rfl

theorem BeforeFail.cnt_le : u.inp.cnt.toNat ≤ s.inp.cnt.toNat := by
  have htook (n : Nat) : (s.took n).inp.cnt.toNat ≤ s.inp.cnt.toNat :=
    (dropBits_cnt s n).trans_le (Nat.sub_le _ n)
  cases h with
  | nothing | tables => exact Nat.le_refl _
  | bits n | code n => exact htook n
  | flg | trailer => exact htook 8
  | header => exact htook 3
  | ncode => exact htook 4

theorem BeforeFail.flg_eq (hp : s.phase ≠ .zhdr) : u.zl.flg = s.zl.flg := by
  cases h with
  | flg v hp' => exact absurd hp' hp
  | _ => rfl

theorem BeforeFail.trailer_eq (hp : s.phase ≠ .trailer) :
    u.zl.trailerVal = s.zl.trailerVal ∧ u.zl.trailerN = s.zl.trailerN := by
  cases h with
  | trailer v n hp' => exact absurd hp' hp
  | _ => exact ⟨rfl, rfl⟩

theorem BeforeFail.header_eq (hp : s.phase ≠ .bhdr) : u.blk.bfinal = s.blk.bfinal ∧ u.blk.btype = s.blk.btype := by
  cases h with
  | header f b hp' => exact absurd hp' hp
  | _ => exact ⟨rfl, rfl⟩

theorem BeforeFail.ncode_eq (hp : s.phase ≠ .dynHdr) : u.blk.ncode = s.blk.ncode := by
  cases h with
  | ncode v hp' => exact absurd hp' hp
  | _ => rfl

theorem BeforeFail.tabs_eq (hcl : s.phase ≠ .dynCl) (hbuild : s.phase ≠ .dynBuild) : u.tabs = s.tabs := by
  cases h with
  | tables ts hp' => exact absurd hp' (not_or.2 ⟨hcl, hbuild⟩)
  | _ => rfl

theorem BeforeFail.hc_eq (hp : ¬ s.phase.ReadsCode) : u.hc = s.hc := by
  cases h with
  | code n h hp' => exact absurd hp' hp
  | _ => rfl

end

/-! ## The shared operations -/

/-- What a step from s can leave: no FAILED, or a Fail after the writes that may stand before it. -/
inductive MayFail (s : State) : State → Prop where
  | goesOn {t : State} (h : t.top ≠ .failed) : MayFail s t
  | fails {u : State} (hu : BeforeFail s u) (x : ErrCause) : MayFail s (u.fail x)

theorem MayFail.blockEnd {s u : State} (hu : u.top ≠ .failed) : MayFail s u.blockEnd := by
  rcases u.blockEnd_cases with ⟨_, e⟩ | ⟨_, e⟩ <;> rw [e] <;> exact .goesOn hu

theorem State.putLens_top (s : State) (n : Nat) (v : BitVec 4) : (s.putLens n v).top = s.top :=
  congrArg Front.top (s.putLens_front n v)

theorem MayFail.putLens {s u : State} (hu : u.top ≠ .failed) (n : Nat) (v : BitVec 4) : MayFail s (u.putLens n v) :=
  .goesOn ((u.putLens_top n v).trans_ne hu)

section
variable {s u : State} (hu : BeforeFail s u) (hr : u.top ≠ .failed)
include hu hr

theorem MayFail.repeatLens (n : Nat) (v : BitVec 4) : MayFail s (u.repeatLens n v) := by
  unfold State.repeatLens
  split
  · exact .fails hu _
  · exact .goesOn ((State.putLens_top _ n v).trans_ne hr)

theorem MayFail.startCopy (dist : Nat) : MayFail s (startCopy u dist) := by
  unfold Machine.startCopy
  split
  · exact .fails hu _
  · exact .goesOn hr

theorem MayFail.dynCounts : MayFail s (dynCounts u) := by
  unfold Machine.dynCounts
  split
  · exact .fails hu _
  · exact .goesOn hr

theorem MayFail.zlibChecks (p : Phase) : MayFail s (zlibChecks u fun w => w.goto p) := by
  unfold Machine.zlibChecks
  split_ifs
  · exact .fails hu _
  · exact .fails hu _
  · exact .fails hu _
  · exact .fails hu _
  · exact .goesOn hr

end

theorem MayFail.trailerCheck {s u : State} (hu : BeforeFail s u) : MayFail s (trailerCheck u) := by
  unfold Machine.trailerCheck
  split
  · exact .fails hu _
  · exact .goesOn nofun

theorem MayFail.emit {s u : State} {k : State → State} {b : Byte} (hu : BeforeFail s u)
    (hk : MayFail s (k { u with out := u.out.emitted b })) : MayFail s (u.emit b k) :=
  State.emit_keeps (fun x => .fails hu x) hk

theorem MayFail.validate {s u : State} {k : State → State} (hu : BeforeFail s u) (hk : MayFail s (k u)) (t : Table)
    (o i : ErrCause) : MayFail s (u.validate t o i k) := by
  rcases u.validate_cases t o i k with ⟨_, e⟩ | ⟨_, e⟩ | ⟨_, _, e⟩ <;> rw [e]
  · exact .fails hu _
  · exact hk
  · exact .fails hu _

section
variable {s u : State} {k : State → State} (hu : ∀ ts, BeforeFail s { u with tabs := ts })
  (hk : ∀ ts, MayFail s (k { u with tabs := ts }))
include hu hk

theorem MayFail.buildCL : MayFail s (u.buildCL k) := .validate (hu _) (hk _) _ _ _

theorem MayFail.buildLL : MayFail s (u.buildLL k) := .validate (hu _) (hk _) _ _ _

theorem MayFail.buildD : MayFail s (u.buildD k) := by
  rcases u.buildD_cases k with ⟨_, e⟩ | ⟨_, e⟩ | ⟨_, _, ⟨_, e⟩ | ⟨_, _, e⟩⟩ <;> rw [e]
  · exact .fails (hu _) _
  · exact hk _
  · exact .fails (hu _) _
  · exact hk _

end

/-! ## INF's rows -/

/-- A row that emits raises nothing where it waits for OUT_FIFO (R218). -/
theorem MayFail.of_infEmit {s t : State} {k : State → Out} (hr : s.top = .running) (h : s.infEmit k = .next t)
    (hk : k s.unhold = .next t → MayFail s t) : MayFail s t := by
  rcases State.infEmit_cases h with ⟨_, _, h⟩ | ⟨_, _, rfl⟩ | ⟨hn, _⟩
  · exact hk h
  · exact .goesOn (hr.trans_ne (by decide))
  · exact absurd hr hn

/-- Every row INF reads fails, where it does, after writes of its own phase (R214). -/
theorem Reads.mayFail {c : Ctx} {m : State → Out} (hm : Reads c m) {s t : State} (hat : Ctx.At c s)
    (hr : s.top = .running) (h : m s = .next t) : MayFail s t := by
  have hgo : s.top ≠ .failed := hr.trans_ne (by decide)
  cases hm with
  | cmf | blockStored | blockFixed | blockDynamic | storedLen | hlit | hdist | clen | clZero17 | clZero18 | lenCode
  | lenExtra | distCode =>
    obtain rfl := State.inf_next hr h
    exact .goesOn hgo
  | litCode =>
    unfold execLit at h
    obtain rfl := State.inf_next hr h
    exact .goesOn hgo
  | flg v =>
    obtain rfl := State.inf_next hr h
    exact .zlibChecks (.flg v hat) hgo .bhdr
  | blockReserved f =>
    obtain rfl := State.inf_next hr h
    exact .fails (.header f 3 hat) _
  | storedNlen v =>
    obtain rfl := State.inf_next hr h
    split_ifs
    · exact .fails (.bits 16) _
    · exact .blockEnd hgo
    · exact .goesOn hgo
  | hclen v =>
    obtain rfl := State.inf_next hr h
    exact .dynCounts (.ncode _ hat) hgo
  | clBuild =>
    obtain rfl := State.inf_next hr h
    exact .buildCL (fun ts => .tables ts (.inl hat)) fun _ => .goesOn hgo
  | clLen _ _ l =>
    obtain rfl := State.inf_next hr h
    exact .putLens (u := s.unhold.endCode) hgo 1 l
  | clRep16 =>
    obtain rfl := State.inf_next hr h
    split
    · exact .fails (.code 1 _ (.inl hat.1)) _
    · exact .goesOn hgo
  | rep16 | zero17 | zero18 =>
    obtain rfl := State.inf_next hr h
    exact .repeatLens (.bits _) hgo _ _
  | dynBuild =>
    obtain rfl := State.inf_next hr h
    split
    · exact .fails (.unhold s) _
    · have htabs (ts : Tables) : BeforeFail s { s.unhold with tabs := ts } := .tables ts (.inr hat)
      exact .buildLL htabs fun _ => .buildD htabs fun _ => .goesOn hgo
  | eob =>
    obtain rfl := State.inf_next hr h
    exact .blockEnd hgo
  | llReserved =>
    obtain rfl := State.inf_next hr h
    exact .fails (.code 1 _ (.inr (.inl hat.1))) _
  | dReserved =>
    obtain rfl := State.inf_next hr h
    exact .fails (.code 1 _ (.inr (.inr hat.1))) _
  | distExtra =>
    obtain rfl := State.inf_next hr h
    exact .startCopy (.bits _) hgo _
  | trailer b =>
    unfold execTrailer at h
    rw [State.inf_running _ hr] at h
    extract_lets s1 at h
    cases h
    split
    · exact .trailerCheck (.trailer _ _ hat)
    · exact .goesOn hgo
  | storedByte b =>
    refine .of_infEmit hr h fun h => ?_
    cases h
    refine .emit (.bits 8) ?_
    extract_lets
    split
    · exact .blockEnd hgo
    · exact .goesOn hgo
  | litEmit =>
    unfold execLit at h
    refine .of_infEmit hr h fun h => ?_
    cases h
    exact .emit (.unhold s) (.goesOn hgo)
  | copy len dist =>
    refine .of_infEmit hr h fun h => ?_
    split at h
    · cases h
    · cases h
      refine .emit (.unhold s) ?_
      extract_lets
      split <;> exact .goesOn hgo

/-! ## The step -/

/-- INVALID_CODE is raised in a phase that reads a code alone (R125). -/
theorem Ctx.At.readsCode {c : Ctx} {s : State} (hat : Ctx.At c s) {bits : List Bool} {h : Hc}
    (hd : decode c bits = .error (.invalidCode h)) : s.phase.ReadsCode := by
  cases c with
  | clSym => exact .inl hat.1
  | llSym => exact .inr (.inl hat.1)
  | dSym => exact .inr (.inr hat.1)
  | clBuild | dynBuild | litEmit | copy => cases hd
  | lenExtra | distExtra => rcases extraTo_error hd with e | e <;> cases e
  | _ => cases fieldTo_error hd

theorem State.fill_mayFail {s : State} (hs : s.top ≠ .failed) : MayFail s s.fill := by
  rcases s.fill_cases with ⟨_, _, _, _, e⟩ | ⟨_, _, e⟩ | ⟨_, _, e⟩ | ⟨_, _, e⟩ <;> rw [e]
  · exact .goesOn hs
  · exact .fails (.unhold s) _
  · exact .fails (.unhold s) _
  · exact .goesOn hs

theorem infStep_mayFail {s t : State} (hr : s.top = .running) (h : infStep s = .next t) : MayFail s t := by
  have hgo : s.top ≠ .failed := hr.trans_ne (by decide)
  rcases infStep_cases h with
    ⟨hn, _⟩ | ⟨_, c, hc, ⟨_, rfl⟩ | ⟨_, ⟨_, _, rfl⟩ | ⟨hc', hd, rfl⟩ | ⟨i, left, hd, he⟩⟩⟩
  · exact absurd hr hn
  · exact State.fill_mayFail hgo
  · exact .goesOn hgo
  · exact .fails (.code _ hc' ((State.ctx_at hc).readsCode hd)) _
  · exact (Reads.of_decode hd).mayFail (State.ctx_at hc) hr he

/-- Of the host's rows only a push fails, and it writes nothing before (R105). -/
theorem DataEffect.mayFail {s t : State} (h : DataEffect s t) (hs : s.top ≠ .failed) : MayFail s t := by
  cases h with
  | fails x hr => exact .fails .nothing x
  | accepts b hf => exact .goesOn hs
  | aside w hf => exact .goesOn hs

/-- A CTRL write raises nothing (R24). -/
theorem ctrlWritten_top_ne_failed {s : State} (hs : s.top ≠ .failed) (v : Word) : (s.ctrlWritten v).top ≠ .failed := by
  rw [ctrlWritten_top]
  split_ifs
  · decide
  · decide
  · exact hs

/-- Every step of a RUNNING stream, once its turn is taken from the agenda. -/
theorem step_mayFail {s t : State} (hr : s.top = .running) (h : step s = .next t) :
    ∃ rest, MayFail { s with agenda := rest } t := by
  have hgo : s.top ≠ .failed := hr.trans_ne (by decide)
  rcases step_cases h with ⟨_, h⟩ | ⟨rest, _, h⟩ | ⟨a, rest, is, _, hd, h⟩ | ⟨rest, _, rfl⟩
  · exact ⟨s.agenda, infStep_mayFail hr h⟩
  · exact ⟨rest, infStep_mayFail (s := { s with agenda := rest }) hr h⟩
  · refine ⟨rest, ?_⟩
    rcases decodeHost_cases hd with ⟨v, _, rfl⟩ | ⟨i, rfl, hi, hstart, habort, _⟩ | rfl
    · rw [runAll_ctrlRows] at h
      cases h
      exact .goesOn (ctrlWritten_top_ne_failed (s := { s with agenda := rest }) hgo v)
    · rw [runAll_one] at h
      exact (hi.dataEffect hstart habort h).mayFail hgo
    · cases runAll_nil h
      exact .goesOn hgo
  · exact ⟨rest, .goesOn nofun⟩

/-- Settles O49: a step of a RUNNING stream that ends in FAILED is a Fail after writes that `BeforeFail` lists, and
Fail records the cursor it finds. -/
theorem errorEntryIsPrecise : Obligations.ErrorEntryIsPrecise := by
  intro s t h hr hfailed
  obtain ⟨rest, hmay⟩ := step_mayFail hr h
  cases hmay with
  | goesOn hgo => exact absurd hfailed hgo
  | fails hu x =>
    have hkind : (BitVec.ofNat 4 x.kind.code).toNat = x.kind.code := Nat.mod_eq_of_lt x.kind.code_lt
    have hcause : (BitVec.ofNat 8 x.code).toNat = x.code := Nat.mod_eq_of_lt x.code_lt
    have hhc (hlens : s.phase ≠ .dynLens) (hsym : s.phase ≠ .sym) (hdist : s.phase ≠ .dist) : ¬ s.phase.ReadsCode :=
      not_or.2 ⟨hlens, not_or.2 ⟨hsym, hdist⟩⟩
    exact ⟨rfl, rfl, ⟨x, hkind, hcause⟩, hu.fail_frame x, hu.cnt_le, hu.flg_eq, hu.trailer_eq, hu.header_eq,
      hu.ncode_eq, hu.tabs_eq, fun hlens hsym hdist => hu.hc_eq (hhc hlens hsym hdist)⟩

end Sys2Proof.Machine
end

section
/-! PROOF. A stream that has ended, the interrupt line, the register views after reset, and several blocks side by side
(R7, R215, R219, R224, R226, R227). -/

namespace Sys2Proof.Machine

/-! ## An ended stream -/

/-- While STATE is not RUNNING, the host rows but START and ABORT leave it and the error registers (R215). -/
theorem DataEffect.ended {s t : State} (h : DataEffect s t) (hs : s.top ≠ .running) : t.top = s.top ∧ t.err = s.err := by
  cases h with
  | fails x hr => exact absurd hr hs
  | accepts b hf => exact ⟨rfl, rfl⟩
  | aside w hf => exact ⟨rfl, rfl⟩

/-- A CTRL write with neither START nor ABORT gives EOI, or nothing (R24). -/
theorem ctrlWritten_eoi {s : State} {v : Word} (hstart : v.getLsbD 0 = false) (habort : v.getLsbD 2 = false) :
    s.ctrlWritten v = if v.getLsbD 1 then s.eoiGiven else s := by
  simp only [State.ctrlWritten, hstart, habort, Bool.false_eq_true, if_false]

/-- Settles O50: INF takes no step, and of the host's rows only START and ABORT write STATE or the error registers. -/
theorem endedStreamStays : Obligations.EndedStreamStays := by
  refine fun s hs => ⟨fun rest ha => ?_, fun a rest t ha h hctrl => ?_⟩
  · exact (step_inf_cons ha).trans (infStep_stopped hs)
  · match hd : decodeHost s.cfg.blockBase a with
    | .error e => simp [step_host ha, hostAction, hd, Action.out] at h
    | .ok is =>
      rw [step_host_rows ha hd] at h
      rcases decodeHost_cases hd with ⟨v, rfl, rfl⟩ | ⟨i, rfl, hi, hstart, habort, _⟩ | rfl
      · obtain ⟨h0, h2⟩ := hctrl v rfl
        rw [runAll_ctrlRows, ctrlWritten_eoi h0 h2] at h
        cases h
        split <;> exact ⟨rfl, rfl⟩
      · rw [runAll_one] at h
        exact (hi.dataEffect hstart habort h).ended hs
      · cases runAll_nil h
        exact ⟨rfl, rfl⟩

/-! ## The interrupt line -/

theorem irq_iff (s : State) : s.irq = true ↔ s.ctl.config.getLsbD 0 = true ∧ (s.top = .done ∨ s.top = .failed) := by
  rw [irq_eq, Bool.and_eq_true, decide_eq_true_eq]

theorem irq_eq_false_of_masked {s : State} (h : s.ctl.config.getLsbD 0 = false) : s.irq = false := by
  rw [irq_eq, h, Bool.false_and]

theorem irq_eq_false_of_top {s : State} (h : s.top = .idle ∨ s.top = .running) : s.irq = false := by
  rw [irq_eq]
  rcases h with h | h <;> simp [h]

/-- Settles O58: the line is pending in DONE and FAILED alone; START, ABORT and reset lead to RUNNING or IDLE, and
IRQ_EN = 0 masks it. -/
theorem interruptLine : Obligations.InterruptLine := by
  refine ⟨fun s => ⟨irq_iff s, ?_⟩, fun s t v hv h => ?_, fun cfg => irq_eq_false_of_top (.inl rfl)⟩
  · obtain ⟨_, _, _, _, _, hirq, _⟩ := status_fields s
    exact hirq
  · rcases h with h | h | h <;> cases h
    · exact irq_eq_false_of_top (.inr rfl)
    · exact irq_eq_false_of_top (.inl rfl)
    · refine irq_eq_false_of_masked ?_
      change (v.setWidth 2).getLsbD 0 = false
      rw [BitVec.getLsbD_setWidth, hv, Bool.and_false]

/-! ## The register views after reset -/

theorem crcValue_resetWith (cfg : Config) : (State.resetWith cfg).crcValue = 0 := BitVec.xor_self

theorem crcMatch_resetWith (cfg : Config) : (State.resetWith cfg).crcMatch = true :=
  beq_iff_eq.2 (crcValue_resetWith cfg)

/-- What the register of word number k reads after reset, STATUS apart (R227). -/
theorem readReg_resetWith (cfg : Config) {k : Nat} (hstatus : k ≠ 2) :
    (State.resetWith cfg).readReg k = if k = 10 ∨ k = 20 then 1 else 0 := by
  unfold State.readReg
  split
  case h_2 => exact absurd rfl hstatus
  case h_13 => exact crcValue_resetWith cfg
  case h_15 => exact congrArg (fun b : Bool => BitVec.ofNat 32 b.toNat) (crcMatch_resetWith cfg)
  case h_17 h10 _ _ _ _ _ _ h20 _ => exact (if_neg (not_or.2 ⟨h10, h20⟩)).symm
  all_goals rfl

/-- Settles O59: the reset input leaves the reset state with other turns to come, and no register shows these. -/
theorem resetViews : Obligations.ResetViews := by
  intro s rest ha hwf
  refine ⟨_, step_reset ha, rfl, rfl, rfl, rfl, rfl, status_resetWith hwf, ?_, ?_, fun k _ h2 h10 h20 => ?_⟩
  · exact readReg_resetWith s.cfg (k := 10) (by decide)
  · exact readReg_resetWith s.cfg (k := 20) (by decide)
  · exact (readReg_resetWith s.cfg h2).trans (if_neg (not_or.2 ⟨h10, h20⟩))

/-! ## Several blocks -/

/-- A step of block k replaces its state and no other (R224). -/
theorem systemStep_eq_some_iff {k : Nat} {sys sys' : List State} :
    systemStep k sys = some sys' ↔ ∃ s t, sys[k]? = some s ∧ step s = .next t ∧ sys' = sys.set k t := by
  unfold systemStep
  cases hs : sys[k]? with
  | none => simp
  | some s => cases ht : step s <;> simp [ht, eq_comm]

/-- Settles O60: the step reads block k alone and sets it alone. -/
theorem instancesIndependent : Obligations.InstancesIndependent := by
  intro sys sys' k j h
  obtain ⟨s, t, hs, ht, rfl⟩ := systemStep_eq_some_iff.1 h
  refine ⟨fun hj => List.getElem?_set_ne hj.symm, fun other ho => ?_⟩
  have ho' : other[k]? = some s := ho.trans hs
  refine ⟨other.set k t, systemStep_eq_some_iff.2 ⟨s, t, ho', ht, rfl⟩, ?_⟩
  have hset {l : List State} (hl : l[k]? = some s) : (l.set k t)[k]? = some t :=
    List.getElem?_set_self (List.getElem?_eq_some_iff.1 hl).1
  rw [hset ho', hset hs]

end Sys2Proof.Machine
end
